-- ==== Sys2Proof/Word.lean ====
section
/-! DEFINITION. The widths and the index types of the JF-416 (spec/00_scope.md, Conventions). -/

namespace Sys2Proof

/-- A byte of a frame. -/
abbrev Byte := BitVec 8

/-- A table word: 16 bits (spec/00_scope.md, "Tables and words"). -/
abbrev Word := BitVec 16

/-- A Cabin Time value: 32 bits, wrapping (R35). -/
abbrev Time := BitVec 32

/-- A seating position, 0 to 15. -/
abbrev Pos := Fin 16

/-- A station. The value `i` stands for station number `i + 1`; "station 0" of a table is `none` of an `Option Station`. -/
abbrev Station := Fin 8

/-- A place on a seat node, 0 to 3. -/
abbrev Place := Fin 4

/-- A bucket of the Sample Store, 0 to 255; bucket 0 is the null bucket. -/
abbrev BucketNo := Fin 256

/-- The levels of the strap pins ADDR1:ADDR0, read as a two-bit number (R136). -/
abbrev Straps := BitVec 2

/-- The station's number, 1 to 8, as frames and tables carry it. -/
def stationNumber (s : Station) : Nat := s.val + 1

end Sys2Proof
end

