-- ==== Sys2Proof/Syntax.lean ====
section
/-! DEFINITION. The commands: one constructor of `Instr` for each row of spec/opcode_table.json, with its operands. -/

namespace Sys2Proof

/-- An error-free data frame with a standard identifier, as VP receives it (R137). -/
structure CanFrame where
  ident : BitVec 11
  data : List Byte
  deriving DecidableEq, Repr

/-- The three status frame kinds (R140, R141). -/
inductive StatusKind where
  | cls
  | belt
  | quality
  deriving DecidableEq, Repr

/-- The levels of the Seat Line at consecutive quarter-bit ticks, oldest first, `true` high (R17, R18). -/
abbrev Samples := List Bool

/-- The part's steps. A command names something that happens at the part: a level on a pin, a frame on one of its two links,
the passing of one of its time units, or the moment at which one of its own timed conditions is met. A command whose moment LC
measures, or that asks LC for a poll, carries the samples of the line since the command before it that carried some (log entry
10), none where no tick has passed. A frame comes under any row that names one of the tests it passes (log entry 5). -/
inductive Instr where
  /-- POWER_ON_RESET: power is applied, with these levels on the straps (R136, R173). -/
  | powerOnReset (straps : Straps)
  /-- RESET_N_LOW (R173). -/
  | resetNLow
  /-- RESET_N_RELEASE, with these levels on the straps (R136, R173). -/
  | resetNRelease (straps : Straps)
  /-- CABIN_TIME_ADVANCE (R35). -/
  | cabinTimeAdvance
  /-- SLOT_START (R36). -/
  | slotStart (line : Samples := [])
  /-- TICK_10MS (R38). -/
  | tick10ms
  /-- TICK_100MS (R38). -/
  | tick100ms
  /-- PENDING_TRIGGER of one position (R112). -/
  | pendingTrigger (p : Pos)
  /-- STAGE_EXPIRY of one position (R113). -/
  | stageExpiry (p : Pos)
  /-- GRACE_DEADLINE_REACHED of one position (R116). -/
  | graceDeadlineReached (p : Pos)
  /-- POLL_SEND (R21). -/
  | pollSend (line : Samples := [])
  /-- LINE_BUSY (R20). -/
  | lineBusy (line : Samples := [])
  /-- POLL_END (R24). -/
  | pollEnd (line : Samples := [])
  /-- NO_REPLY (R24). -/
  | noReply (line : Samples := [])
  /-- REPLY_RECEIVED: `stop` is the sample of the stop bit of the reply's last byte, after the others (R26); with no others
  it may name a stop bit that a command before it has brought already (log entry 44). -/
  | replyReceived (line : Samples) (stop : Bool)
  /-- END_OF_FRAME_IDLE (R27). -/
  | endOfFrameIdle (line : Samples := [])
  /-- RECEPTION_LIMIT (R27). -/
  | receptionLimit (line : Samples := [])
  /-- EVALUATION_START (R57). -/
  | evaluationStart
  /-- EVALUATION_COMPLETION (R59). -/
  | evaluationCompletion
  /-- VP_MS_TICK (R135). -/
  | vpMsTick
  /-- SPEED_STALE (R139). -/
  | speedStale
  /-- STATUS_FRAME_DUE of one status kind (R141). -/
  | statusFrameDue (kind : StatusKind)
  /-- SUPPRESSION_FRAME_DUE (R142). -/
  | suppressionFrameDue
  /-- BUS_OFF_RECOVERY (R148). -/
  | busOffRecovery
  /-- SPEED_FRAME: a frame that updates the speed input (R138). -/
  | speedFrame (frame : CanFrame)
  /-- POWER_MODE_FRAME: a frame that updates the power-mode input (R138). -/
  | powerModeFrame (frame : CanFrame)
  /-- TRANSMIT_START (R147). -/
  | transmitStart
  /-- TRANSMIT_SUCCESS (R147). -/
  | transmitSuccess
  /-- LOST_ARBITRATION (R147). -/
  | lostArbitration
  /-- TRANSMIT_FAILURE (R147). -/
  | transmitFailure
  /-- REQUEST_DISCARDED: a frame on a request identifier while MU is SERVING (R151). -/
  | requestDiscarded (ident : BitVec 11) (data : List Byte)
  /-- MALFORMED_REQUEST (R150). -/
  | malformedRequest (ident : BitVec 11) (data : List Byte)
  /-- READ_WORD (R159). -/
  | readWord (ident : BitVec 11) (data : List Byte)
  /-- WRITE_WORD of a table word that has no row of its own (R160). -/
  | writeWord (ident : BitVec 11) (data : List Byte)
  /-- WRITE_POSITION_STATION: WRITE_WORD of Position Table word 0 (R98). -/
  | writePositionStation (ident : BitVec 11) (data : List Byte)
  /-- WRITE_AIRBAG_RELEVANT: WRITE_WORD of Position Table word 3 (R97). -/
  | writeAirbagRelevant (ident : BitVec 11) (data : List Byte)
  /-- WRITE_OVERRIDE_ENABLE: WRITE_WORD of Output Overrides word 0 (R133). -/
  | writeOverrideEnable (ident : BitVec 11) (data : List Byte)
  /-- WRITE_OVERRIDE_LATCHED: WRITE_WORD of Output Overrides word 1 (R133). -/
  | writeOverrideLatched (ident : BitVec 11) (data : List Byte)
  /-- WRITE_MASKED (R161). -/
  | writeMasked (ident : BitVec 11) (data : List Byte)
  /-- SET_MODE_RUN: SET_MODE with mode byte 1 (R164, R170). -/
  | setModeRun (ident : BitVec 11) (data : List Byte)
  /-- SET_MODE_HOLD: SET_MODE with mode byte 2 (R164, R168). -/
  | setModeHold (ident : BitVec 11) (data : List Byte)
  /-- HOLD_SETTLED (R168). -/
  | holdSettled
  /-- SET_MODE_CONFIG: SET_MODE with mode byte 0 (R164, R169). -/
  | setModeConfig (ident : BitVec 11) (data : List Byte)
  /-- CONFIG_ENTRY (R169). -/
  | configEntry
  /-- STEP (R163). -/
  | step (ident : BitVec 11) (data : List Byte)
  /-- STEP_ADVANCE (R39). -/
  | stepAdvance (line : Samples := [])
  /-- REIDENTIFY (R162). -/
  | reidentify (ident : BitVec 11) (data : List Byte)
  /-- RESET_RUNTIME (R165, R172). -/
  | resetRuntime (ident : BitVec 11) (data : List Byte)
  /-- RESPONSE_HANDOVER (R152). -/
  | responseHandover
  /-- REPLY_START_BIT: the last of the samples confirms a start bit (R18, R24). -/
  | replyStartBit (line : Samples)
  /-- REPLY_BYTE_READ: `stop` is the sample of the stop bit of a byte that does not complete the reply, after the others (R25); with
  no others it may name a stop bit that a command before it has brought already (log entry 44). -/
  | replyByteRead (line : Samples) (stop : Bool)
  /-- LINE_LOW_SAMPLE: the last of the samples is low (R18). -/
  | lineLowSample (line : Samples)
  /-- POWER_LOSS (R166). -/
  | powerLoss
  deriving DecidableEq, Repr

/-- A frame under one of the request rows. -/
def CanFrame.under (f : CanFrame) (row : BitVec 11 → List Byte → Instr) : Instr := row f.ident f.data

end Sys2Proof
end

