-- ==== Sys2Proof/Decode.lean ====
section
/-! DEFINITION. What the bytes of a request frame spell: its kind, and the row of the table it stands under. No row of
spec/opcode_table.json gives bits ("fields" is empty in each), so no table word spells a command. -/

namespace Sys2Proof

/-- The JF-416's commands are events and frames, not words: no row of the table gives bits. -/
def decodeTableWord (_nbits _w : Nat) : Option Instr := none

/-! ## The rows of the request frames -/

/-- Data byte `i` of a frame, 0 where the frame has none. -/
def byteAt (data : List Byte) (i : Nat) : Byte := data.getD i 0

/-- Two data bytes as a word, byte `i` the low one (R150). -/
def wordAt (data : List Byte) (i : Nat) : Word := byteAt data (i + 1) ++ byteAt data i

/-- The kind of a request frame: the high nibble of byte 0 (R150, R175). -/
def kindNibble (data : List Byte) : Nat := (byteAt data 0).toNat / 16

/-- The frames that are answered MALFORMED: a data length other than 8, or a kind of 0 or 8 to 15 (R150). -/
def malformedData (data : List Byte) : Bool :=
  data.length != 8 || kindNibble data == 0 || 8 ≤ kindNibble data

/-- A whole request frame of a kind (R175). -/
def isKind (data : List Byte) (kind : Nat) : Bool := data.length == 8 && kindNibble data == kind

/-- A WRITE_WORD of word `word` of table `id` (R175). -/
def writesItem (data : List Byte) (id word : Byte) : Bool :=
  isKind data 2 && byteAt data 1 == id && byteAt data 3 == word

/-- A WRITE_WORD whose item has a row of its own. -/
def hasOwnRow (data : List Byte) : Bool :=
  writesItem data 1 0 || writesItem data 1 3 || writesItem data 9 0 || writesItem data 9 1

/-- A SET_MODE with mode byte `m`; a byte of 3 to 255 names no mode and may stand under any of the three rows (log entry 8). -/
def setsMode (data : List Byte) (m : Byte) : Bool :=
  isKind data 4 && (byteAt data 1 == m || 3 ≤ (byteAt data 1).toNat)

end Sys2Proof
end

