-- ==== Sys2Proof/Config.lean ====
section
/-! DEFINITION. What the spec leaves to the part or says nothing of, as constants without a body. -/

namespace Sys2Proof

/-- The level of output line `k` (0 to 5 LAMP0 to LAMP5, 6 CHIME, 7 SUPPRESS) while the part has no power. The spec states
the lines' levels only for a powered part, in reset and out of it: a free value (log entry 6). -/
opaque Config.unpoweredLevel : Nat → Bool

end Sys2Proof
end

