-- ==== Sys2Proof/Machine/State.lean ====
section
/-! DEFINITION. Everything the spec gives the JF-416 to hold, block by block as spec/00_scope.md divides it, and its value after reset. -/

namespace Sys2Proof.Machine

/-- Why a step could stop. The JF-416 has no fault: every command of the table, in every state, leaves it in a next state, so this
type has no constructor. -/
inductive Fault where
  deriving DecidableEq, Repr

/-- Why a command could be refused. -/
inductive Refusal where
  /-- Raised by `exec` alone, for a command that has no meaning yet (none is left). Safe: the machine stops. -/
  | notModelled (mnemonic : String)
  deriving DecidableEq, Repr

/-! ## Power and mode -/

/-- Whether the part has power, and whether RESET_N is low (R166, R173). -/
inductive Power where
  | off
  | inReset
  | on
  deriving DecidableEq, Repr

/-- The device mode (R167). -/
inductive Mode where
  | config
  | run
  | hold
  deriving DecidableEq, Repr

/-- MC's change in progress (R167). -/
inductive Change where
  | none
  | holdSettling
  /-- `due` is the model's own: an evaluation has completed with no poll in flight, so that the entry to CONFIG comes before the
  next evaluation (log entry 26). -/
  | configWaiting (due : Bool)
  | resetSettling
  deriving DecidableEq, Repr

/-! ## Time Base and Poll Scheduler -/

/-- TB: Cabin Time and the slot clock, with the slot starts and ticks it has raised and not yet handed over (R35 to R39). -/
structure TimeBase where
  time : Time := 0
  /-- Milliseconds of Cabin Time to the next slot start (R36). -/
  slotTimer : Nat := 2
  /-- Slot starts raised to PS and not yet taken; after a reset there is one, of Cabin Time 0 (R36). -/
  slotStarts : Nat := 1
  /-- Cabin Time values whose 10 ms tick has not yet reached OU, oldest first (R38, R39). -/
  ticks10 : List Time := []
  /-- Cabin Time values whose 100 ms tick has not yet reached RU, oldest first (R38, R39). -/
  ticks100 : List Time := []
  deriving DecidableEq, Repr

/-- PS: slot index, On-Demand Queue and sweep station (R40, R43, R44). -/
structure Scheduler where
  slotIndex : Fin 64 := 0
  onDemand : List Station := []
  sweep : Station := 0
  deriving DecidableEq, Repr

/-! ## Line Controller -/

/-- The kind of a poll (R21). -/
inductive PollKind where
  | sample
  | identify
  deriving DecidableEq, Repr

/-- The phase of the poll in flight (R19). -/
inductive Phase where
  | waitIdle
  | sending
  | listening
  | receiving
  deriving DecidableEq, Repr

/-- The poll in flight (R19). Moments are values of LC's quarter-bit clock. -/
structure Poll where
  station : Station
  kind : PollKind
  slotStart : Nat
  sequenceSent : Option (BitVec 4) := none
  phase : Phase := .waitIdle
  latency : Option Nat := none
  /-- The moment of the poll's first start bit (R21). -/
  sentAt : Nat := 0
  /-- The poll end (R21, R24). -/
  pollEnd : Nat := 0
  /-- No sample of the reply window has been low yet (R18). -/
  windowFresh : Bool := false
  /-- The first low sample of the byte that is being read (R17). -/
  byteStart : Option Nat := none
  /-- The data bits of that byte read so far, the newest in bit 7 (R17). -/
  byte : Byte := 0
  deriving DecidableEq, Repr

/-- LC: its two measures of the line, the poll in flight and the receive buffer (R18, R19). -/
structure LineController where
  /-- Quarter-bit ticks counted so far: the next sample of the line has this number. -/
  clock : Nat := 0
  /-- The idle run, in quarter-bit ticks (R18). -/
  idleRun : Nat := 0
  /-- The first low sample of a candidate start bit (R18). -/
  candidate : Option Nat := none
  poll : Option Poll := none
  /-- The receive frame buffer, at most 48 bytes (R19). -/
  buffer : List Byte := []
  deriving DecidableEq, Repr

/-! ## Station Manager -/

/-- The state of a station (R4). -/
inductive StationState where
  | absent
  | active
  | linkLost
  deriving DecidableEq, Repr

/-- A Node Map record with its values after reset (R4). -/
structure Node where
  state : StationState := .absent
  /-- 0 while absent. -/
  nodeId : Byte := 0
  places : Nat := 0
  calIndex : Option (Fin 16) := none
  misses : Nat := 0
  latency : Nat := 0
  sequence : BitVec 4 := 0
  probe : Nat := 0
  hopReported : Bool := false
  deriving DecidableEq, Repr

/-- SM: the Node Map and the routing from (station, place) to position (R3, R4). -/
structure StationManager where
  nodes : Vector Node 8 := Vector.replicate 8 {}
  routing : Vector (Vector (Option Pos) 4) 8 := Vector.replicate 8 (Vector.replicate 4 none)
  deriving DecidableEq, Repr

/-! ## Sample Store -/

/-- A buckle reading (R32): OPEN, LATCHED or FAULT. Where a confirmed state may be UNKNOWN, or a reading none, an `Option Reading` holds it. -/
inductive Reading where
  | opened
  | latched
  | fault
  deriving DecidableEq, Repr

/-- A tag reading (R32). -/
inductive Tag where
  | none
  | rearward
  | forward
  | unreadable
  deriving DecidableEq, Repr

/-- A place sample (R32). -/
structure PlaceSample where
  cells : Vector Nat 6 := Vector.replicate 6 0
  tag : Tag := .none
  disturbed : Bool := false
  buckle : Reading := .opened
  deriving DecidableEq, Repr

/-- A bucket (R49). -/
structure Bucket where
  sample : PlaceSample := {}
  time : Time := 0
  next : BucketNo := 0
  deriving DecidableEq, Repr

/-- The SS fields of one position (R51, R56, R54). -/
structure Chain where
  head : BucketNo := 0
  tail : BucketNo := 0
  len : Nat := 0
  scheduled : Bool := false
  underEval : Bool := false
  epoch : Byte := 0
  /-- loss-since-completion -/
  loss : Bool := false
  deriving DecidableEq, Repr

/-- The buckets of a free list that links 1, 2, … 255 in order, with the given contents (R50). Bucket 0, which is in no list, and
the last bucket have `next` 0; for bucket 0 that is the model's choice (log entry 37). -/
def linkedInOrder (contents : Vector Bucket 256) : Vector Bucket 256 :=
  Vector.ofFn fun i => { contents[i] with next := if i = 0 then 0 else i + 1 }

/-- SS: the buckets, the free list, the chains and the Evaluation Queue (R49 to R56). -/
structure SampleStore where
  buckets : Vector Bucket 256 := linkedInOrder (Vector.replicate 256 {})
  freeHead : BucketNo := 1
  freeLen : Nat := 255
  chains : Vector Chain 16 := Vector.replicate 16 {}
  evalQueue : List Pos := []
  deriving DecidableEq, Repr

/-! ## The loaded tables -/

/-- The threshold banks (R1). -/
inductive BankName where
  | a
  | b
  deriving DecidableEq, Repr

/-- A Position Table entry with its defaults (R1, R178). -/
structure PositionEntry where
  station : Option Station := none
  place : Place := 0
  lampGroup : Option (Fin 6) := none
  profile : Fin 4 := 0
  bank : BankName := .a
  applicable : Bool := false
  childCheck : Bool := false
  chimePriority : Nat := 0
  airbag : Bool := false
  deriving DecidableEq, Repr

/-- A Calibration Table entry: place q, cell c stands at 6q + c (R178). -/
structure CalibrationEntry where
  nodeId : Byte := 0
  offsets : Vector Nat 24 := Vector.replicate 24 0
  gains : Vector Nat 24 := Vector.replicate 24 64
  deriving DecidableEq, Repr

/-- A threshold bank (R178). -/
structure Thresholds where
  w : Nat := 8
  h : Nat := 4
  cellOn : Nat := 60
  fPerson : Nat := 3
  tObj : Nat := 200
  tAdult : Nat := 1100
  hm : Nat := 60
  dMax : Nat := 400
  c : Nat := 3
  deriving DecidableEq, Repr

/-- A Reminder Profiles entry (R178). -/
structure Profile where
  speedOn : Nat := 10
  pendingDelay : Nat := 60
  stage1 : Nat := 20
  stage2Max : Nat := 90
  grace : Nat := 30
  retrigger : Bool := true
  chimeTotal : Nat := 100
  chimeStart : Nat := 0
  chimeEnd : Nat := 30
  deriving DecidableEq, Repr

/-- Global Settings (R178). -/
structure GlobalSettings where
  slotPeriod : Nat := 2
  retryLimit : Nat := 3
  probeDivider : Nat := 4
  chainCap : Nat := 24
  roughLimit : Nat := 4
  statusPeriod : Nat := 10
  bankBEnable : Bool := false
  flashTotal : Nat := 100
  flashStart : Nat := 0
  flashEnd : Nat := 50
  scheduleLength : Nat := 1
  deriving DecidableEq, Repr

/-- A Vehicle Inputs entry (R178). -/
structure VehicleInput where
  ident : BitVec 11
  byteIndex : Fin 8 := 0
  deriving DecidableEq, Repr

/-- The tables MU holds, with their defaults (R150, R178); OU holds the Output Overrides. -/
structure Tables where
  positions : Vector PositionEntry 16 := Vector.replicate 16 {}
  calibration : Vector CalibrationEntry 16 := Vector.replicate 16 {}
  bankA : Thresholds := {}
  bankB : Thresholds := {}
  profiles : Vector Profile 4 := Vector.replicate 4 {}
  schedule : Vector (Option Station) 64 := Vector.replicate 64 none
  globals : GlobalSettings := {}
  speedInput : VehicleInput := { ident := 0x210 }
  powerInput : VehicleInput := { ident := 0x120 }
  deriving DecidableEq, Repr

/-! ## Window Evaluator and Classifier -/

/-- The evaluation in flight (R67). -/
structure Evaluation where
  pos : Pos
  epoch : Byte
  bank : Thresholds
  offsets : Vector Nat 6
  gains : Vector Nat 6
  deriving DecidableEq, Repr

/-- The classes (spec/06, table of classes). -/
inductive Cls where
  | unknown
  | empty
  | object
  | childSeatRear
  | childSeatFwd
  | smallOccupant
  | adult
  | notConfigured
  deriving DecidableEq, Repr

/-- The suppression state (R84). -/
inductive Suppression where
  | indeterminate
  | enable
  | suppress
  deriving DecidableEq, Repr

/-- The quality flags of a position (R84). -/
structure Quality where
  rough : Bool := false
  sampleLoss : Bool := false
  defaultCal : Bool := false
  linkDown : Bool := false
  deriving DecidableEq, Repr

/-- CL's record of a position, with its values after a reset for a position that is not fitted (R84). -/
structure ClassRecord where
  committed : Cls := .notConfigured
  candidate : Option Cls := none
  confirm : Nat := 0
  disturbedRun : Nat := 0
  lastL : Nat := 0
  lastD : Nat := 0
  lastF : Nat := 0
  lastRaw : Cls := .unknown
  quality : Quality := {}
  supp : Suppression := .suppress
  deriving DecidableEq, Repr

/-! ## Reminder Unit -/

/-- The buckle fields of a position (R103). -/
structure Buckle where
  last : Option Reading := none
  confirmed : Option Reading := none
  captureTime : Time := 0
  captureSpeed : Byte := 0
  captureState : Option Reading := none
  deriving DecidableEq, Repr

/-- The reminder states (R103). -/
inductive Reminder where
  | inactive
  | buckled
  | pending
  | stage1
  | stage2
  | expired
  | suspended
  deriving DecidableEq, Repr

/-- The reminder fields of a position (R103). The last two are the model's own: a move that a tick or a speed change has made
due and that its own command has not yet taken (log entry 14). -/
structure ReminderRecord where
  state : Reminder := .inactive
  remembered : Option Reminder := none
  timer : Nat := 0
  deadline : Option Time := none
  entryTime : Time := 0
  /-- A tick has been counted that takes the stage timer from 1 to 0. -/
  expiring : Bool := false
  /-- A trigger test has held. -/
  triggered : Bool := false
  deriving DecidableEq, Repr

/-- RU (R103). -/
structure ReminderUnit where
  buckles : Vector Buckle 16 := Vector.replicate 16 {}
  records : Vector ReminderRecord 16 := Vector.replicate 16 {}
  ignitionCount : Nat := 0
  ignitionTime : Time := 0
  deriving DecidableEq, Repr

/-! ## Output Unit -/

/-- The state of a lamp group (R124). -/
inductive GroupState where
  | off
  | steady
  | flashing
  deriving DecidableEq, Repr

/-- An Output Overrides entry (R133). -/
structure Override where
  enable : Bool := false
  latched : Bool := false
  deriving DecidableEq, Repr

/-- OU (R123). Entries 0 to 5 of `overrides` are the lamps, entry 6 is the chime. -/
structure OutputUnit where
  groups : Vector GroupState 6 := Vector.replicate 6 .off
  flash : Nat := 0
  flashTime : Time := 0
  owner : Option Pos := none
  chime : Nat := 0
  chimeTime : Time := 0
  held : Vector Bool 6 := Vector.replicate 6 false
  overrides : Vector Override 7 := Vector.replicate 7 {}
  /-- OU's copy of each position's reminder state. -/
  reminders : Vector Reminder 16 := Vector.replicate 16 .inactive
  /-- OU's copy of position A's suppression state. -/
  suppA : Option Suppression := none
  deriving DecidableEq, Repr

/-! ## Vehicle Port -/

/-- A frame of eight data bytes. -/
abbrev Frame := Vector Byte 8

/-- The power mode (R138). -/
inductive PowerMode where
  | off
  | accessory
  | run
  | crank
  deriving DecidableEq, Repr

/-- The indication of the belt content (R122). -/
inductive Indication where
  | none
  | lamp
  | lampAndChime
  | expired
  deriving DecidableEq, Repr

/-- The belt content of a position (R122). -/
structure BeltContent where
  buckle : Option Reading := none
  indication : Indication := .none
  deriving DecidableEq, Repr

/-- What the suppression frame says of one position (R140). -/
structure SuppEntry where
  pos : Pos
  state : Suppression
  cls : Cls
  deriving DecidableEq, Repr

/-- The suppression content: positions A and B, each where it exists (R96, R140). -/
structure SuppContent where
  a : Option SuppEntry := none
  b : Option SuppEntry := none
  deriving DecidableEq, Repr

/-- What VP keeps for one report kind (R140 to R142), with its values after power-on reset (R149). `due` is the model's own: the
due test has held and the slot has not yet been made pending (log entry 15). -/
structure Report (κ : Type) where
  content : κ
  lastSent : Option κ := none
  elapsed : Nat := 0
  due : Bool := false
  pending : Bool := true
  deriving DecidableEq, Repr

/-- The event kinds (R144). -/
inductive EventKind where
  | stationFound
  | seatChanged
  | linkLost
  | linkRestored
  | hopMismatch
  | placeMissing
  | calMissing
  | sampleLoss
  | busOffRecovered
  | modeChanged
  deriving DecidableEq, Repr

/-- An event record (R144). -/
structure EventRecord where
  kind : EventKind
  subject : Byte
  detail0 : Byte
  detail1 : Byte
  stamp : BitVec 24
  lost : Bool := false
  deriving DecidableEq, Repr

/-- Which slot a frame on the wire came from, with the content it was formed from where VP keeps one (R141, R142, R147). -/
inductive Payload where
  | suppression (content : SuppContent)
  | response
  | event
  | cls (content : Vector Cls 16)
  | belt (content : Vector BeltContent 16)
  | quality (content : Vector Quality 16)
  deriving DecidableEq, Repr

/-- The frame on the wire (R147). `resetSince` records a RESET_RUNTIME taken during the attempt (R143, R145). -/
structure Attempt where
  payload : Payload
  ident : BitVec 11
  data : Frame
  resetSince : Bool := false
  deriving DecidableEq, Repr

/-- VP (R136 to R149). -/
structure VehiclePort where
  base : BitVec 11
  busOff : Bool := false
  failures : Nat := 0
  /-- Milliseconds of the present BUS_OFF (R148). -/
  busOffCount : Nat := 0
  speed : Byte := 0
  staleness : Nat := 1000
  /-- The count has reached 1000 and the speed change has not yet been handed to RU (log entry 15). -/
  staleDue : Bool := false
  powerMode : PowerMode := .off
  suppression : Report SuppContent := { content := {} }
  cls : Report (Vector Cls 16) := { content := Vector.replicate 16 .notConfigured }
  belt : Report (Vector BeltContent 16) := { content := Vector.replicate 16 {} }
  quality : Report (Vector Quality 16) := { content := Vector.replicate 16 {} }
  response : Option Frame := none
  eventSlot : Option EventRecord := none
  eventQueue : List EventRecord := []
  rolling : Nat := 0
  wire : Option Attempt := none
  deriving DecidableEq, Repr

/-! ## Management Unit -/

/-- The access level of a request, by the identifier it arrives on: base + 0 or base + 1 (R136, R150). -/
inductive Level where
  | operational
  | service
  deriving DecidableEq, Repr

/-- The request record of R150. -/
structure RequestRecord where
  level : Level
  echo : Byte
  kind : Nat
  tag : BitVec 4
  id : Byte
  entry : Byte
  word : Byte
  value : Word
  mask : Word
  deriving DecidableEq, Repr

/-- The status codes (R152). -/
inductive Status where
  | ok
  | malformed
  | notPresent
  | mode
  | range
  | conflict
  | queueFull
  | moving
  | invalidTables
  deriving DecidableEq, Repr

/-- What a response will say beside the echo and the flags (R152). -/
structure Result where
  status : Status
  data : Word := 0
  detail5 : Byte := 0
  detail6 : Byte := 0
  detail7 : Byte := 0
  deriving DecidableEq, Repr

/-- A STEP being carried out (R39, R163). -/
structure StepRun where
  count : Nat
  /-- Steps not yet begun. -/
  remaining : Nat
  /-- A step has begun and has not ended. -/
  inStep : Bool := false
  /-- The deadline test of the step in progress has been made (R116). -/
  deadlinesTested : Bool := false
  deriving DecidableEq, Repr

/-- How far MU has come with the request in service (R151). -/
inductive Work where
  /-- Carried out or refused; the response is not yet handed over. -/
  | result (r : Result)
  /-- A STEP. -/
  | stepping (run : StepRun)
  /-- A change in progress at MC. -/
  | changing
  deriving DecidableEq, Repr

/-- The request in service (R150). -/
structure Service where
  req : RequestRecord
  work : Work
  deriving DecidableEq, Repr

/-- MU: IDLE when `service` is none, SERVING otherwise (R150, R151). -/
structure ManagementUnit where
  service : Option Service := none
  overlap : Bool := false
  deriving DecidableEq, Repr

/-! ## The machine -/

/-- The state of the part, with the queue of the commands that wait. -/
structure State where
  power : Power
  mode : Mode := .config
  change : Change := .none
  tb : TimeBase := {}
  ps : Scheduler := {}
  lc : LineController := {}
  sm : StationManager := {}
  ss : SampleStore := {}
  we : Option Evaluation := none
  cl : Vector ClassRecord 16 := Vector.replicate 16 {}
  ru : ReminderUnit := {}
  ou : OutputUnit := {}
  vp : VehiclePort
  mu : ManagementUnit := {}
  tables : Tables := {}
  pending : List Instr := []
  deriving DecidableEq, Repr

/-- The identifier base that the straps select (R136). -/
def identifierBase (straps : Straps) : BitVec 11 := 0x640 + 0x20 * straps.setWidth 11

/-- The part right after power-on reset, or after RESET_N is released, with the straps at these levels (R173). -/
def State.fresh (straps : Straps) : State :=
  { power := .on, vp := { base := identifierBase straps } }

/-- The part right after power-on reset, both straps low (log entry 1). -/
def State.reset : State := State.fresh 0

end Sys2Proof.Machine
end

