-- ==== Sys2Proof/Machine/Ops.lean ====
section
/-! DEFINITION. The operations that several blocks share: updates by index, the vehicle conditions, Cabin Time comparisons and the Event Queue. -/

namespace Sys2Proof.Machine

/-- Change entry `i` of `v`. -/
def upd {α : Type} {n : Nat} (v : Vector α n) (i : Fin n) (f : α → α) : Vector α n := v.set i (f v[i])

/-- Every position, ascending. -/
def allPos : List Pos := [0, 1, 2, 3, 4, 5, 6, 7, 8, 9, 10, 11, 12, 13, 14, 15]

/-- Every station, ascending. -/
def allStations : List Station := [0, 1, 2, 3, 4, 5, 6, 7]

/-- Every lamp group, ascending. -/
def allGroups : List (Fin 6) := [0, 1, 2, 3, 4, 5]

/-- A number as a frame byte. -/
def byteOf (n : Nat) : Byte := BitVec.ofNat 8 n

/-- Run `f` on each item in order. -/
def forEach {α σ : Type} (xs : List α) (f : α → σ → σ) (s : σ) : σ := xs.foldl (fun t x => f x t) s

/-- The part has power and is not held in reset. -/
def State.running (s : State) : Bool := s.power == .on

/-- A command whose moment has come has its effect `t`. A command that is given at any other moment, to a part held in reset or
to a part without power leaves `s` as it is (log entry 3). -/
def occurs (s : State) (due : Bool) (t : State) : Host.Outcome State Fault Refusal :=
  .next (if s.running && due then t else s)

/-! ## What blocks read of each other -/

/-- The speed as every block reads it: 255 while it is stale (R139). -/
def State.speedReading (s : State) : Byte := if s.vp.staleness = 1000 then 255 else s.vp.speed

/-- The ignition that a power mode stands for (R107). -/
def PowerMode.ignition : PowerMode → Bool
  | .off => false
  | .accessory => false
  | .run => true
  | .crank => true

/-- The ignition is on (R107). -/
def State.ignitionOn (s : State) : Bool := s.vp.powerMode.ignition

/-- The vehicle is moving: the speed reads above 0 (R164). -/
def State.moving (s : State) : Bool := s.speedReading != 0

/-- The position's Position Table entry. -/
def State.entry (s : State) (p : Pos) : PositionEntry := s.tables.positions[p]

/-- The position is fitted (R1). -/
def State.fitted (s : State) (p : Pos) : Bool := (s.entry p).station.isSome

/-- The position's reminder profile (R103). -/
def State.profileOf (s : State) (p : Pos) : Profile := s.tables.profiles[(s.entry p).profile]

/-- The name of the bank in force for a position (R55). -/
def Tables.bankName (t : Tables) (p : Pos) : BankName := if t.globals.bankBEnable then t.positions[p].bank else .a

/-- A bank by name. -/
def Tables.bank (t : Tables) : BankName → Thresholds
  | .a => t.bankA
  | .b => t.bankB

/-- The bank in force for a position (R55). -/
def State.bankInForce (s : State) (p : Pos) : Thresholds := s.tables.bank (s.tables.bankName p)

/-- LC is IDLE: no poll is in flight (R19). -/
def State.lineIdle (s : State) : Bool := s.lc.poll.isNone

/-- WE is IDLE (R67). -/
def State.weIdle (s : State) : Bool := s.we.isNone

/-- Nothing is in flight: no poll and no evaluation (R167). -/
def State.nothingInFlight (s : State) : Bool := s.lineIdle && s.weIdle

/-! ## Cabin Time, modulo 2^32 -/

/-- Time `t` is at or before `mark`: `mark - t`, taken modulo 2^32, is below 2^31 (R108, R113). -/
def atOrBefore (t mark : Time) : Bool := (mark - t).toNat < 2 ^ 31

/-- The deadline is reached: now less the deadline, taken modulo 2^32, is below 2^31 (R116). -/
def reached (now deadline : Time) : Bool := (now - deadline).toNat < 2 ^ 31

/-! ## The Event Queue and the EVENT slot -/

/-- Set LOST on the newest record of the queue (R144). -/
def markNewestLost : List EventRecord → List EventRecord
  | [] => []
  | [r] => [{ r with lost := true }]
  | r :: q :: rest => r :: markNewestLost (q :: rest)

/-- The EVENT slot takes the head of the queue when it is empty (R145). -/
def VehiclePort.refill (vp : VehiclePort) : VehiclePort :=
  match vp.eventSlot, vp.eventQueue with
  | none, r :: rest => { vp with eventSlot := some r, eventQueue := rest }
  | _, _ => vp

/-- An event record is appended, or dropped with LOST set on the newest record when the queue holds 16 (R144). -/
def VehiclePort.enqueue (vp : VehiclePort) (r : EventRecord) : VehiclePort :=
  if vp.eventQueue.length < 16 then VehiclePort.refill { vp with eventQueue := vp.eventQueue ++ [r] }
  else { vp with eventQueue := markNewestLost vp.eventQueue }

/-- Queue an event, stamped with the low 24 bits of Cabin Time (R144). -/
def State.queueEvent (s : State) (kind : EventKind) (subject detail0 detail1 : Byte) : State :=
  { s with vp := s.vp.enqueue { kind, subject, detail0, detail1, stamp := s.tb.time.setWidth 24 } }

/-- An event whose subject is a station (R144). -/
def State.stationEvent (s : State) (kind : EventKind) (st : Station) (detail0 detail1 : Byte) : State :=
  s.queueEvent kind (byteOf (stationNumber st)) detail0 detail1

/-- An event whose subject is a position (R144). -/
def State.positionEvent (s : State) (kind : EventKind) (p : Pos) (detail0 detail1 : Byte) : State :=
  s.queueEvent kind (byteOf p.val) detail0 detail1

/-- The code of a mode in responses and in MODE_CHANGED (R152, R174). -/
def Mode.code : Mode → Nat
  | .config => 0
  | .run => 1
  | .hold => 2

/-- The mode takes a value and MODE_CHANGED is queued (R174). -/
def State.enterMode (s : State) (m : Mode) : State :=
  State.queueEvent { s with mode := m } .modeChanged 0 (byteOf m.code) 0

end Sys2Proof.Machine
end

