-- ==== Sys2Proof/Machine/Flags.lean ====
section
/-! DEFINITION. Report contents: the due tests of R141 and R142 and the hand-over of new content to VP, with the quality flags among them. -/

namespace Sys2Proof.Machine

section
variable {κ : Type} [DecidableEq κ]

/-- The due test of a report kind: on its period, or on changed content after the gap (R141, R142). -/
def Report.dueNow (r : Report κ) (period gap : Nat) : Bool :=
  !r.pending && (decide (period ≤ r.elapsed) || (decide (r.lastSent ≠ some r.content) && decide (gap ≤ r.elapsed)))

/-- VP makes the due test (R141). -/
def Report.test (r : Report κ) (period gap : Nat) : Report κ :=
  if r.dueNow period gap then { r with due := true } else r

/-- New content is handed to VP: content that is as it was changes nothing, other content is tested (R140, R141). -/
def Report.hand (r : Report κ) (c : κ) (period gap : Nat) : Report κ :=
  if c = r.content then r else Report.test { r with content := c } period gap

/-- VP's millisecond tick: the elapsed count rises, up to 2000, and the test is made (R141). -/
def Report.tick (r : Report κ) (period gap : Nat) : Report κ :=
  Report.test { r with elapsed := min (r.elapsed + 1) 2000 } period gap

/-- The slot becomes pending (R141). -/
def Report.makePending (r : Report κ) : Report κ := { r with pending := true, due := false }

/-- A frame of the kind, with content `c`, has been transmitted (R141). -/
def Report.sent (r : Report κ) (c : κ) : Report κ := { r with pending := false, elapsed := 0, lastSent := some c }

end

/-- The status period in milliseconds (R141). -/
def State.statusPeriod (s : State) : Nat := s.tables.globals.statusPeriod * 10

/-- The gap of a status kind, in milliseconds (R141). -/
def statusGap : Nat := 20

/-- The period of the suppression frame, in milliseconds (R142). -/
def suppressionPeriod : Nat := 50

/-- The gap of the suppression frame, in milliseconds (R142). -/
def suppressionGap : Nat := 10

/-- CL hands VP a position's class (R95, R140). -/
def State.handClass (s : State) (p : Pos) (c : Cls) : State :=
  { s with vp := { s.vp with cls := s.vp.cls.hand (s.vp.cls.content.set p c) s.statusPeriod statusGap } }

/-- RU hands VP a position's belt content (R122, R140). -/
def State.handBelt (s : State) (p : Pos) (b : BeltContent) : State :=
  { s with vp := { s.vp with belt := s.vp.belt.hand (s.vp.belt.content.set p b) s.statusPeriod statusGap } }

/-- CL hands VP a position's quality flags (R95, R140). -/
def State.handQuality (s : State) (p : Pos) (q : Quality) : State :=
  { s with vp := { s.vp with quality := s.vp.quality.hand (s.vp.quality.content.set p q) s.statusPeriod statusGap } }

/-- The quality flags of `p` in CL's record become `f` of what they were, and a change is handed to VP (R95). -/
def State.setQuality (s : State) (p : Pos) (f : Quality → Quality) : State :=
  let q := f s.cl[p].quality
  State.handQuality { s with cl := upd s.cl p fun r => { r with quality := q } } p q

end Sys2Proof.Machine
end

