-- ==== Sys2Proof/Machine/Output.lean ====
section
/-! DEFINITION. The Output Unit: lamp groups, the chime arbiter, the cadences, the overrides and the level of each of the eight lines (R123 to R134). -/

namespace Sys2Proof.Machine

/-- Some position of lamp group `g` is in a state that `test` accepts, by OU's copies (R124). -/
def State.groupHas (s : State) (g : Fin 6) (test : Reminder → Bool) : Bool :=
  allPos.any fun p => (s.entry p).lampGroup == some g && test s.ou.reminders[p]

/-- The derived state of a lamp group (R124). -/
def State.groupState (s : State) (g : Fin 6) : GroupState :=
  if s.groupHas g (· == .stage2) then .flashing
  else if s.groupHas g fun r => r == .stage1 || r == .expired then .steady
  else .off

/-- The better claim to the chime of two positions that are in STAGE_2: `q` takes it from `best` only with a higher priority, so
that among equals the lower index, which is met first, keeps it (R127). -/
def State.betterClaim (s : State) (best : Option Pos) (q : Pos) : Option Pos :=
  if s.ou.reminders[q] = .stage2 then
    match best with
    | none => some q
    | some b => if (s.entry b).chimePriority < (s.entry q).chimePriority then some q else some b
  else best

/-- The derived chime owner (R127). -/
def State.chimeOwner (s : State) : Option Pos := allPos.foldl s.betterClaim none

/-- OU derives the state of group `g` again; passing into FLASHING restarts the flash counter (R124, R126). -/
def State.deriveGroup (s : State) (g : Fin 6) : State :=
  let now := s.groupState g
  if now = s.ou.groups[g] then s
  else if now = .flashing then
    { s with ou := { s.ou with groups := s.ou.groups.set g now, flash := 0, flashTime := s.tb.time } }
  else { s with ou := { s.ou with groups := s.ou.groups.set g now } }

/-- OU derives the chime owner again; a change of owner restarts the chime counter (R127, R128). -/
def State.deriveOwner (s : State) : State :=
  let now := s.chimeOwner
  if now = s.ou.owner then s
  else { s with ou := { s.ou with owner := now, chime := 0, chimeTime := s.tb.time } }

/-- RU hands OU a position's new reminder state (R122, R124, R127). -/
def State.handReminder (s : State) (p : Pos) (r : Reminder) : State :=
  let s := { s with ou := { s.ou with reminders := s.ou.reminders.set p r } }
  match (s.entry p).lampGroup with
  | some g => (s.deriveGroup g).deriveOwner
  | none => s.deriveOwner

/-! ## Cadences -/

/-- A cadence: total, on_start and on_end, in 10 ms units (R125). -/
structure Cadence where
  total : Nat
  onStart : Nat
  onEnd : Nat
  deriving DecidableEq, Repr

/-- The counter after an advance (R125). -/
def Cadence.advance (c : Cadence) (counter : Nat) : Nat := if counter + 1 < c.total then counter + 1 else 0

/-- The output at a counter value (R125). -/
def Cadence.output (c : Cadence) (counter : Nat) : Bool :=
  decide (c.onStart ≤ counter) && decide (counter < min c.onEnd c.total)

/-- The flash cadence: Global Settings words 7 to 9. -/
def State.flashCadence (s : State) : Cadence :=
  let g := s.tables.globals
  { total := g.flashTotal, onStart := g.flashStart, onEnd := g.flashEnd }

/-- The chime cadence of an owner: its profile's chime words (R128). -/
def State.chimeCadence (s : State) (p : Pos) : Cadence :=
  let f := s.profileOf p
  { total := f.chimeTotal, onStart := f.chimeStart, onEnd := f.chimeEnd }

/-- A 10 ms tick of Cabin Time `v` reaches OU: in RUN the flash counter advances, and the chime counter with an owner, each
unless it was restarted at that same value (R126, R128). -/
def State.outputTick (s : State) (v : Time) : State :=
  if s.mode = .run then
    let flash := if v = s.ou.flashTime then s.ou.flash else s.flashCadence.advance s.ou.flash
    let chime :=
      match s.ou.owner with
      | none => s.ou.chime
      | some p => if v = s.ou.chimeTime then s.ou.chime else (s.chimeCadence p).advance s.ou.chime
    { s with ou := { s.ou with flash, chime } }
  else s

/-! ## The lines -/

/-- The level of a line that an override may drive: the latched value when enabled, else `normal` (R131, R132). -/
def Override.level (o : Override) (normal : Bool) : Bool := if o.enable then o.latched else normal

/-- The level of LAMPg in RUN (R129). -/
def State.lampInRun (s : State) (g : Fin 6) : Bool :=
  match s.ou.groups[g] with
  | .off => false
  | .steady => true
  | .flashing => s.flashCadence.output s.ou.flash

/-- The level of LAMPg (R123, R129, R131, R132). -/
def State.lampLine (s : State) (g : Fin 6) : Bool :=
  match s.power with
  | .off => Config.unpoweredLevel g
  | .inReset => false
  | .on =>
    match s.mode with
    | .run => s.lampInRun g
    | .hold => s.ou.overrides[g.castSucc].level s.ou.held[g]
    | .config => s.ou.overrides[g.castSucc].level false

/-- The level of CHIME in RUN (R130). -/
def State.chimeInRun (s : State) : Bool :=
  match s.ou.owner with
  | none => false
  | some p => s.ignitionOn && (s.chimeCadence p).output s.ou.chime

/-- The level of CHIME (R123, R130 to R132). -/
def State.chimeLine (s : State) : Bool :=
  match s.power with
  | .off => Config.unpoweredLevel 6
  | .inReset => false
  | .on =>
    match s.mode with
    | .run => s.chimeInRun
    | .hold => s.ou.overrides[(6 : Fin 7)].level false
    | .config => s.ou.overrides[(6 : Fin 7)].level false

/-- The level of SUPPRESS (R123, R134). -/
def State.suppressLine (s : State) : Bool :=
  match s.power with
  | .off => Config.unpoweredLevel 7
  | .inReset => false
  | .on => s.ou.suppA == some .suppress

/-- OU writes each lamp line's present level into its held level (R131). -/
def State.holdLamps (s : State) : State :=
  { s with ou := { s.ou with held := Vector.ofFn fun g => s.lampLine g } }

/-- OU clears every override enable and keeps the latched values (R133). -/
def OutputUnit.clearEnables (ou : OutputUnit) : OutputUnit :=
  { ou with overrides := Vector.ofFn fun i => { ou.overrides[i] with enable := false } }

end Sys2Proof.Machine
end

