-- ==== Sys2Proof/Machine/Reminders.lean ====
section
/-! DEFINITION. The Reminder Unit: buckle debounce, triggers, stage timers, deadlines and the reminder's transitions (R103 to R122). -/

namespace Sys2Proof.Machine

/-! ## The transitions of one reminder record. Each clears what the state it enters does not use, the stage entry time among it, which
STAGE_1 and STAGE_2 alone use (R103). -/

/-- INACTIVE: timer 0, no deadline, nothing remembered (R117). -/
def ReminderRecord.toInactive : ReminderRecord := { state := .inactive }

/-- BUCKLED: timer 0, no deadline, nothing remembered (R114). -/
def ReminderRecord.toBuckled : ReminderRecord := { state := .buckled }

/-- PENDING with or without a grace deadline (R111, R115). -/
def ReminderRecord.toPending (deadline : Option Time) : ReminderRecord := { state := .pending, deadline }

/-- STAGE_1 entered at `now` with a loaded timer (R112, R113). -/
def ReminderRecord.toStage1 (timer : Nat) (now : Time) : ReminderRecord :=
  { state := .stage1, timer, entryTime := now }

/-- STAGE_2 entered at `now` with a loaded timer (R113, R116). -/
def ReminderRecord.toStage2 (timer : Nat) (now : Time) : ReminderRecord :=
  { state := .stage2, timer, entryTime := now }

/-- EXPIRED: the timer stays at 0 (R113). -/
def ReminderRecord.toExpired : ReminderRecord := { state := .expired }

/-- SUSPENDED, remembering the state with its timer and deadline (R118); a stage that resumes has its entry time written anew (R113). A
tick that was still to move a stage on is not taken, so the timer stands at 1. -/
def ReminderRecord.toSuspended (r : ReminderRecord) : ReminderRecord :=
  { state := .suspended, remembered := some r.state, timer := r.timer, deadline := r.deadline }

/-- Back to the remembered state with the timer and the deadline kept; a resumed stage is entered at `now` (R113, R119). -/
def ReminderRecord.resumed (r : ReminderRecord) (now : Time) : ReminderRecord :=
  match r.remembered with
  | some .stage1 => { r with state := .stage1, remembered := none, entryTime := now }
  | some .stage2 => { r with state := .stage2, remembered := none, entryTime := now }
  | some .expired => { r with state := .expired, remembered := none }
  | _ => { r with state := .pending, remembered := none }

/-! ## What RU hands on -/

/-- The indication of a reminder state (R122). -/
def Reminder.indication : Reminder → Indication
  | .inactive => .none
  | .buckled => .none
  | .pending => .none
  | .suspended => .none
  | .stage1 => .lamp
  | .stage2 => .lampAndChime
  | .expired => .expired

/-- The belt content of a position (R122). -/
def State.beltContent (s : State) (p : Pos) : BeltContent :=
  { buckle := s.ru.buckles[p].confirmed, indication := s.ru.records[p].state.indication }

/-- RU hands VP the position's belt content as it now stands (R122). -/
def State.giveBelt (s : State) (p : Pos) : State := s.handBelt p (s.beltContent p)

/-- Store a position's reminder record; a new reminder state goes to OU and its belt content to VP (R122). -/
def State.putRecord (s : State) (p : Pos) (r : ReminderRecord) : State :=
  let t := { s with ru := { s.ru with records := s.ru.records.set p r } }
  if r.state = s.ru.records[p].state then t else (t.handReminder p r.state).giveBelt p

/-- Store a position's buckle fields; a new confirmed state goes to VP in its belt content (R122). -/
def State.putBuckle (s : State) (p : Pos) (b : Buckle) : State :=
  let t := { s with ru := { s.ru with buckles := s.ru.buckles.set p b } }
  if b.confirmed = s.ru.buckles[p].confirmed then t else t.giveBelt p

/-! ## Conditions -/

/-- A class that counts as a person, given the child-seat belt check (R109). -/
def Cls.person (childCheck : Bool) : Cls → Bool
  | .smallOccupant => true
  | .adult => true
  | .childSeatRear => childCheck
  | .childSeatFwd => childCheck
  | .unknown => false
  | .empty => false
  | .object => false
  | .notConfigured => false

/-- The belt counts as latched (R109). -/
def State.latched (s : State) (p : Pos) : Bool := s.ru.buckles[p].confirmed == some .latched

/-- The conditions of applicability other than the class (R109). -/
def State.mayApply (s : State) (p : Pos) : Bool :=
  s.fitted p && (s.entry p).applicable && (s.mode != .config) && s.ignitionOn

/-- The reminder of `p` is applicable while its class is `c` (R109). -/
def State.applicable (s : State) (p : Pos) (c : Cls) : Bool := s.mayApply p && c.person (s.entry p).childCheck

/-- The trigger of R112. -/
def State.triggerHolds (s : State) (p : Pos) : Bool :=
  let f := s.profileOf p
  decide (f.speedOn ≤ s.speedReading.toNat)
    || (f.pendingDelay != 255 && decide (f.pendingDelay * 10 ≤ s.ru.ignitionCount))

/-- The record is in PENDING with no grace deadline (R112). -/
def ReminderRecord.awaitsTrigger (r : ReminderRecord) : Bool := r.state == .pending && r.deadline.isNone

/-- The record is in PENDING with its grace deadline reached at `now` (R116). -/
def ReminderRecord.deadlineReached (r : ReminderRecord) (now : Time) : Bool :=
  r.state == .pending && match r.deadline with
    | some d => reached now d
    | none => false

/-! ## Moves -/

/-- The move to STAGE_1 with the profile's stage1 × 10 (R112). -/
def State.moveToStage1 (s : State) (p : Pos) : State :=
  s.putRecord p (ReminderRecord.toStage1 ((s.profileOf p).stage1 * 10) s.tb.time)

/-- The move to STAGE_2 with the profile's stage2_max × 10 (R113, R116). -/
def State.moveToStage2 (s : State) (p : Pos) : State :=
  s.putRecord p (ReminderRecord.toStage2 ((s.profileOf p).stage2Max * 10) s.tb.time)

/-- A trigger test made at once (R112). -/
def State.triggerTest (s : State) (p : Pos) : State :=
  if s.ru.records[p].awaitsTrigger && s.triggerHolds p then s.moveToStage1 p else s

/-- A deadline test made at once (R116). -/
def State.deadlineTest (s : State) (p : Pos) : State :=
  if s.ru.records[p].deadlineReached s.tb.time then s.moveToStage2 p else s

/-- Entry into PENDING, with the test that follows at once: of the deadline where one is set, of the trigger otherwise (R111,
R115, R119). -/
def State.enterPending (s : State) (p : Pos) (r : ReminderRecord) : State :=
  ((s.putRecord p r).triggerTest p).deadlineTest p

/-- The expiry of a stage (R113). -/
def State.expireStage (s : State) (p : Pos) : State :=
  match s.ru.records[p].state with
  | .stage1 => s.moveToStage2 p
  | .stage2 => s.putRecord p .toExpired
  | _ => s

/-- The trigger test of every position at a tick or a speed change: where it holds, the move to STAGE_1 is due (R112). -/
def State.markTriggers (s : State) : State :=
  { s with ru := { s.ru with records := Vector.ofFn fun p =>
      let r := s.ru.records[p]
      if r.awaitsTrigger && s.triggerHolds p then { r with triggered := true } else r } }

/-- A speed change reaches RU: in RUN it causes a trigger test (R107, R112). -/
def State.speedChange (s : State) : State := if s.mode = .run then s.markTriggers else s

/-- A tick of Cabin Time `v` counts a stage timer down: from 1 the stage is due to expire, and a tick at or before the stage entry
time does not count (R113). -/
def ReminderRecord.countDown (r : ReminderRecord) (v : Time) : ReminderRecord :=
  if (r.state == .stage1 || r.state == .stage2) && !atOrBefore v r.entryTime then
    if 1 < r.timer then { r with timer := r.timer - 1 } else { r with expiring := true }
  else r

/-- The ignition-on counter after a tick of Cabin Time `v` (R108). -/
def State.countIgnition (s : State) (v : Time) : Nat :=
  if s.ignitionOn && !atOrBefore v s.ru.ignitionTime then min (s.ru.ignitionCount + 1) 65535 else s.ru.ignitionCount

/-- A 100 ms tick of Cabin Time `v` reaches RU: the counter rises, the stage timers count down, and the trigger tests are made
(R108, R112, R113). -/
def State.reminderTick (s : State) (v : Time) : State :=
  State.markTriggers { s with ru := { s.ru with
    ignitionCount := s.countIgnition v
    records := Vector.ofFn fun p => s.ru.records[p].countDown v } }

/-- The move that a trigger test has made due, if one has (R112). -/
def State.takeTrigger (s : State) (p : Pos) : State :=
  if s.ru.records[p].triggered && s.ru.records[p].awaitsTrigger then s.moveToStage1 p else s

/-- The expiry that a tick has made due, if one has (R113). -/
def State.takeExpiry (s : State) (p : Pos) : State :=
  if s.ru.records[p].expiring then s.expireStage p else s

/-- Every move that ticks and tests have made due is taken (R112, R113), position by position in ascending index. The rules name no
order; it decides whether a lamp group of which one position leaves STAGE_2 while another enters it passes through STEADY, and so
whether the flash counter restarts (R126, log entry 40). -/
def State.takeDueMoves (s : State) : State := forEach allPos (fun p t => (t.takeTrigger p).takeExpiry p) s

/-! ## Buckle readings -/

/-- A latch ends the escalation (R114). -/
def State.latch (s : State) (p : Pos) : State :=
  let r := s.ru.records[p]
  match r.state with
  | .pending | .stage1 | .stage2 | .expired => s.putRecord p .toBuckled
  | .inactive | .buckled | .suspended => s

/-- An unbuckle from BUCKLED goes to PENDING, with a grace deadline placed from the capture when the profile's retrigger and the
capture speed call for it (R115). -/
def State.unlatch (s : State) (p : Pos) : State :=
  let r := s.ru.records[p]
  let b := s.ru.buckles[p]
  let f := s.profileOf p
  if r.state = .buckled then
    if f.retrigger && decide (f.speedOn ≤ b.captureSpeed.toNat) then
      s.enterPending p (.toPending (some (b.captureTime + BitVec.ofNat 32 (f.grace * 100))))
    else s.enterPending p (.toPending none)
  else s

/-- The buckle fields after a confirmed change to `x` (R104, R105). -/
def State.capture (s : State) (x : Reading) : Buckle :=
  { last := some x, confirmed := some x, captureTime := s.tb.time, captureSpeed := s.speedReading, captureState := some x }

/-- A buckle reading of `p` reaches RU (R104, R105, R114, R115). -/
def State.buckleReading (s : State) (p : Pos) (x : Reading) : State :=
  let b := s.ru.buckles[p]
  if b.last = some x ∧ b.confirmed ≠ some x then
    let t := s.putBuckle p (s.capture x)
    if x = .latched then t.latch p
    else if b.confirmed = some .latched then t.unlatch p
    else t
  else s.putBuckle p { b with last := some x }

/-- RU puts a buckle back to UNKNOWN with no last reading; the capture stays (R106). -/
def State.resetBuckle (s : State) (p : Pos) : State :=
  s.putBuckle p { s.ru.buckles[p] with last := none, confirmed := none }

/-! ## Classes and the ignition -/

/-- The reminder of an INACTIVE position becomes applicable (R111). -/
def State.becomeApplicable (s : State) (p : Pos) : State :=
  let r := s.ru.records[p]
  if s.latched p then s.putRecord p .toBuckled else s.enterPending p (.toPending none)

/-- A class of UNKNOWN is handed on (R118). -/
def State.reminderUnknown (s : State) (p : Pos) : State :=
  let r := s.ru.records[p]
  match r.state with
  | .pending | .stage1 | .stage2 | .expired => s.putRecord p r.toSuspended
  | .buckled => s.putRecord p .toInactive
  | .inactive | .suspended => s

/-- A SUSPENDED position receives a person class (R119). -/
def State.resume (s : State) (p : Pos) : State :=
  let r := s.ru.records[p]
  if s.latched p then s.putRecord p .toBuckled else s.enterPending p (r.resumed s.tb.time)

/-- CL hands RU a committed class in place of `old` (R111, R117 to R119). -/
def State.reminderClass (s : State) (p : Pos) (old new : Cls) : State :=
  let r := s.ru.records[p]
  let check := (s.entry p).childCheck
  if new = .unknown then s.reminderUnknown p
  else if new.person check then
    if r.state = .suspended then s.resume p
    else if r.state = .inactive ∧ old.person check = false ∧ s.mayApply p = true then s.becomeApplicable p
    else s
  else s.putRecord p .toInactive

/-- Every reminder moves to INACTIVE (R117, R120). -/
def State.allInactive (s : State) : State := forEach allPos (fun p t => t.putRecord p .toInactive) s

/-- The ignition comes on (R108, R111). -/
def State.ignitionComesOn (s : State) : State :=
  let t := { s with ru := { s.ru with ignitionTime := s.tb.time } }
  forEach allPos (fun p u =>
    if u.ru.records[p].state = .inactive ∧ u.applicable p u.cl[p].committed = true then u.becomeApplicable p else u) t

/-- The ignition goes off (R108, R117). -/
def State.ignitionGoesOff (s : State) : State :=
  State.allInactive { s with ru := { s.ru with ignitionCount := 0 } }

end Sys2Proof.Machine
end

