-- ==== Sys2Proof/Machine/Classes.lean ====
section
/-! DEFINITION. The Classifier: effective thresholds, raw class, confirmation, quality flags, suppression state and the positions A and B (R84 to R102). -/

namespace Sys2Proof.Machine

/-- The suppression state of a class (R94). -/
def Cls.suppression : Cls → Suppression
  | .adult => .enable
  | .unknown => .indeterminate
  | .empty => .suppress
  | .object => .suppress
  | .childSeatRear => .suppress
  | .childSeatFwd => .suppress
  | .smallOccupant => .suppress
  | .notConfigured => .suppress

/-! ## Positions A and B -/

/-- The airbag-relevant positions in ascending order (R96). -/
def Tables.airbagPositions (t : Tables) : List Pos := allPos.filter fun p => t.positions[p].airbag

/-- Position A, the lower-indexed of the airbag-relevant positions (R96). -/
def Tables.positionA (t : Tables) : Option Pos := t.airbagPositions[0]?

/-- Position B, the other (R96). -/
def Tables.positionB (t : Tables) : Option Pos := t.airbagPositions[1]?

/-- What is reported of an airbag-relevant position (R96). -/
def State.suppEntry (s : State) (p : Pos) : SuppEntry := { pos := p, state := s.cl[p].supp, cls := s.cl[p].committed }

/-- CL gives OU the suppression state of A, and VP the index, state and class of A and B (R96). -/
def State.giveSuppression (s : State) : State :=
  let a := s.tables.positionA.map s.suppEntry
  let b := s.tables.positionB.map s.suppEntry
  { s with
    ou := { s.ou with suppA := a.map SuppEntry.state }
    vp := { s.vp with suppression := s.vp.suppression.hand { a, b } suppressionPeriod suppressionGap } }

/-- The committed class of `p` becomes `c` with its suppression state; a change goes to RU, VP and, for an airbag-relevant
position, OU and VP (R94, R95). -/
def State.setClass (s : State) (p : Pos) (c : Cls) : State :=
  let old := s.cl[p].committed
  let t := { s with cl := upd s.cl p fun r => { r with committed := c, supp := c.suppression } }
  if c = old then t
  else
    let t := (t.reminderClass p old c).handClass p c
    if (t.entry p).airbag then t.giveSuppression else t

/-! ## Acting on a result -/

/-- The orientation of a tag (R79). -/
inductive Orientation where
  | rearward
  | forward
  deriving DecidableEq, Repr

/-- WE's result, less the position and the epoch (R80). -/
structure WindowResult where
  lbar : Nat
  spread : Nat
  fmin : Nat
  disturbed : Bool
  tag : Option Orientation
  deriving DecidableEq, Repr

/-- The rank of a class against the load boundaries, where hysteresis applies (R85). -/
def Cls.rank : Cls → Option Nat
  | .empty => some 0
  | .object => some 1
  | .smallOccupant => some 1
  | .adult => some 2
  | .unknown => none
  | .childSeatRear => none
  | .childSeatFwd => none
  | .notConfigured => none

/-- A boundary moved away from a committed rank by the margin: `above` says that the rank lies above the boundary (R85). -/
def moveBoundary (threshold margin : Nat) (above : Bool) : Nat :=
  if above then threshold - margin else min (threshold + margin) 16383

/-- The effective T_obj: the boundary between ranks 0 and 1 (R85). -/
def effectiveObj (b : Thresholds) (committed : Cls) : Nat :=
  match committed.rank with
  | none => b.tObj
  | some k => moveBoundary b.tObj b.hm (1 ≤ k)

/-- The effective T_adult: the boundary between ranks 1 and 2 (R85). -/
def effectiveAdult (b : Thresholds) (committed : Cls) : Nat :=
  match committed.rank with
  | none => b.tAdult
  | some k => moveBoundary b.tAdult b.hm (2 ≤ k)

/-- The raw class of a result: the first test that holds (R86). -/
def rawClass (b : Thresholds) (committed : Cls) (w : WindowResult) : Cls :=
  match w.tag with
  | some .rearward => .childSeatRear
  | some .forward => .childSeatFwd
  | none =>
    if w.lbar < effectiveObj b committed then .empty
    else if w.fmin < b.fPerson then .object
    else if w.lbar < effectiveAdult b committed then .smallOccupant
    else .adult

/-- CL records the figures of a valid result (R87). -/
def ClassRecord.recordFigures (r : ClassRecord) (w : WindowResult) (raw : Cls) : ClassRecord :=
  { r with lastL := w.lbar, lastD := w.spread, lastF := w.fmin, lastRaw := raw }

/-- What a clean window does: the class that commits, if any, and the candidate and confirm count otherwise (R89, R90). -/
def ClassRecord.confirmation (r : ClassRecord) (raw : Cls) (c : Nat) : Option Cls × Option Cls × Nat :=
  if raw = r.committed then (none, none, 0)
  else if r.committed = .unknown then (some raw, none, 0)
  else if r.candidate = some raw then
    if c ≤ r.confirm + 1 then (some raw, none, 0) else (none, some raw, r.confirm + 1)
  else if c = 1 ∨ raw = .childSeatRear then (some raw, none, 0)
  else (none, some raw, 1)

/-- ROUGH follows the disturbed-run counter (R91). -/
def State.updateRough (s : State) (p : Pos) : State :=
  s.setQuality p fun q => { q with rough := decide (s.tables.globals.roughLimit ≤ s.cl[p].disturbedRun) }

/-- A disturbed window counts in the disturbed run and touches no class (R88). -/
def State.classifyDisturbed (s : State) (p : Pos) : State :=
  { s with cl := upd s.cl p fun r => { r with disturbedRun := min (r.disturbedRun + 1) 15 } }

/-- A clean window ends the disturbed run and confirms, counts or commits (R89, R90). -/
def State.classifyClean (s : State) (p : Pos) (raw : Cls) (c : Nat) : State :=
  let (commit, candidate, confirm) := s.cl[p].confirmation raw c
  let t := { s with cl := upd s.cl p fun r => { r with disturbedRun := 0, candidate, confirm } }
  match commit with
  | some k => t.setClass p k
  | none => t

/-- CL acts on a valid result taken under bank `b` (R87). -/
def State.classify (s : State) (p : Pos) (b : Thresholds) (w : WindowResult) : State :=
  let raw := rawClass b s.cl[p].committed w
  let t := { s with cl := upd s.cl p fun r => r.recordFigures w raw }
  let t := if w.disturbed then t.classifyDisturbed p else t.classifyClean p raw b.c
  t.updateRough p

/-! ## Flush and fitting -/

/-- The class of a position without evidence: UNKNOWN when it is fitted, NOT_CONFIGURED otherwise (R84, R93). -/
def State.blankClass (s : State) (p : Pos) : Cls := if s.fitted p then .unknown else .notConfigured

/-- CL's part of a flush (R93). -/
def State.flushClass (s : State) (p : Pos) : State :=
  let t := { s with cl := upd s.cl p fun r => { r with candidate := none, confirm := 0, disturbedRun := 0 } }
  let t := t.setQuality p fun q => { q with rough := false }
  t.setClass p (t.blankClass p)

/-- CL's part of a write of Position Table word 0, given whether the position was fitted before it (R98). -/
def State.fittingChange (s : State) (p : Pos) (wasFitted : Bool) : State :=
  if wasFitted && !s.fitted p then
    (s.setClass p .notConfigured).setQuality p fun q => { q with linkDown := false, defaultCal := false }
  else if !wasFitted && s.fitted p then s.setClass p .unknown
  else s

end Sys2Proof.Machine
end

