-- ==== Sys2Proof/Machine/Frames.lean ====
section
/-! DEFINITION. The frames VP sends and the transmit arbiter: codes, report and event frames, attempts and their ends (R140 to R149, R176, R177). -/

namespace Sys2Proof.Machine

/-! ## Codes -/

/-- The class codes (R176). -/
def Cls.code : Cls → Nat
  | .unknown => 0
  | .empty => 1
  | .object => 2
  | .childSeatRear => 3
  | .childSeatFwd => 4
  | .smallOccupant => 5
  | .adult => 6
  | .notConfigured => 15

/-- The codes of the suppression states (R176). -/
def Suppression.code : Suppression → Nat
  | .indeterminate => 0
  | .enable => 1
  | .suppress => 2

/-- The code of a buckle reading or state; 3 stands for UNKNOWN or none (R176, R180). -/
def readingCode : Option Reading → Nat
  | some .opened => 0
  | some .latched => 1
  | some .fault => 2
  | none => 3

/-- The codes of the indications (R176). -/
def Indication.code : Indication → Nat
  | .none => 0
  | .lamp => 1
  | .lampAndChime => 2
  | .expired => 3

/-- The kind codes of events (R177). -/
def EventKind.code : EventKind → Nat
  | .stationFound => 1
  | .seatChanged => 2
  | .linkLost => 3
  | .linkRestored => 4
  | .hopMismatch => 5
  | .placeMissing => 6
  | .calMissing => 7
  | .sampleLoss => 8
  | .busOffRecovered => 9
  | .modeChanged => 10

/-- A flag as a number. -/
def flag (b : Bool) : Nat := if b then 1 else 0

/-! ## Frames -/

/-- A status frame: position p in byte ⌊p/2⌋, the low nibble for an even p and the high one for an odd p (R140, R176). -/
def packNibbles (f : Pos → Nat) : Frame :=
  Vector.ofFn fun i => byteOf (f ⟨2 * i.val, by have := i.isLt; omega⟩ + 16 * f ⟨2 * i.val + 1, by have := i.isLt; omega⟩)

/-- The nibble of a belt frame (R176). -/
def BeltContent.nibble (b : BeltContent) : Nat := readingCode b.buckle + 4 * b.indication.code

/-- The nibble of a quality frame (R176). -/
def Quality.nibble (q : Quality) : Nat := flag q.rough + 2 * flag q.sampleLoss + 4 * flag q.defaultCal + 8 * flag q.linkDown

/-- A byte of the suppression frame: 0xFF for a missing position (R140). -/
def suppByte (e : Option SuppEntry) (f : SuppEntry → Nat) : Byte :=
  match e with
  | some x => byteOf (f x)
  | none => 0xFF

/-- The suppression frame, with its check: the eight bytes sum to 0xFF modulo 256 (R143, R176). -/
def suppressionFrame (c : SuppContent) (rolling : Nat) : Frame :=
  let b0 := suppByte c.a fun e => e.pos.val
  let b1 := suppByte c.a fun e => e.state.code
  let b2 := suppByte c.b fun e => e.pos.val
  let b3 := suppByte c.b fun e => e.state.code
  let b4 := suppByte c.a fun e => e.cls.code
  let b5 := suppByte c.b fun e => e.cls.code
  let b6 := byteOf rolling
  #v[b0, b1, b2, b3, b4, b5, b6, 0xFF - (b0 + b1 + b2 + b3 + b4 + b5 + b6)]

/-- An event frame (R177). -/
def eventFrame (r : EventRecord) : Frame :=
  #v[byteOf (r.kind.code + 128 * flag r.lost), r.subject, r.detail0, r.detail1,
     r.stamp.setWidth 8, (r.stamp >>> (8 : Nat)).setWidth 8, (r.stamp >>> (16 : Nat)).setWidth 8, 0]

/-! ## The arbiter -/

/-- An attempt of a kind: its identifier lies `offset` above the base (R136, R147). -/
def VehiclePort.attempt (vp : VehiclePort) (payload : Payload) (offset : BitVec 11) (data : Frame) : Attempt :=
  { payload, ident := vp.base + offset, data }

/-- The status slot that the arbiter takes when no slot above stands pending: CLASS, BELT, QUALITY (R147). -/
def VehiclePort.statusAttempt (vp : VehiclePort) : Option Attempt :=
  if vp.cls.pending then
    some (vp.attempt (.cls vp.cls.content) 4 (packNibbles fun p => vp.cls.content[p].code))
  else if vp.belt.pending then
    some (vp.attempt (.belt vp.belt.content) 5 (packNibbles fun p => vp.belt.content[p].nibble))
  else if vp.quality.pending then
    some (vp.attempt (.quality vp.quality.content) 6 (packNibbles fun p => vp.quality.content[p].nibble))
  else none

/-- The pending slot that stands first in the order, with its frame formed (R147). -/
def VehiclePort.arbitrate (vp : VehiclePort) : Option Attempt :=
  if vp.suppression.pending then
    some (vp.attempt (.suppression vp.suppression.content) 3 (suppressionFrame vp.suppression.content vp.rolling))
  else
    match vp.response with
    | some f => some (vp.attempt .response 2 f)
    | none =>
      match vp.eventSlot with
      | some r => some (vp.attempt .event 7 (eventFrame r))
      | none => vp.statusAttempt

/-- The rolling counter after a suppression frame: from 14 back to 0, and standing where a RESET_RUNTIME came during the attempt
(R143). -/
def VehiclePort.rolledOn (vp : VehiclePort) (a : Attempt) : Nat :=
  if a.resetSince then vp.rolling else if vp.rolling < 14 then vp.rolling + 1 else 0

/-- What success does to the slot of the frame (R141 to R146). -/
def VehiclePort.settleSlot (vp : VehiclePort) (a : Attempt) : VehiclePort :=
  match a.payload with
  | .suppression c => { vp with suppression := vp.suppression.sent c, rolling := vp.rolledOn a }
  | .response => { vp with response := none }
  | .event => VehiclePort.refill { vp with eventSlot := none }
  | .cls c => { vp with cls := vp.cls.sent c }
  | .belt c => { vp with belt := vp.belt.sent c }
  | .quality c => { vp with quality := vp.quality.sent c }

/-- A successful transmission (R147, R148). -/
def VehiclePort.succeed (vp : VehiclePort) (a : Attempt) : VehiclePort :=
  VehiclePort.settleSlot { vp with wire := none, failures := 0 } a

/-- An attempt ends without success: the slot stays pending, but an EVENT slot that a RESET_RUNTIME would have emptied is emptied
now (R145, R147). -/
def VehiclePort.release (vp : VehiclePort) (a : Attempt) : VehiclePort :=
  if a.resetSince ∧ a.payload = .event then VehiclePort.refill { vp with wire := none, eventSlot := none }
  else { vp with wire := none }

/-- A failed attempt counts, and the 32nd in a row takes the port to BUS_OFF (R147, R148). -/
def VehiclePort.fail (vp : VehiclePort) (a : Attempt) : VehiclePort :=
  let t := vp.release a
  if vp.failures + 1 < 32 then { t with failures := vp.failures + 1 }
  else { t with failures := 32, busOff := true, busOffCount := 0 }

/-! ## VP's millisecond tick -/

/-- The speed reading changes at this tick: the count reaches 1000 with a stored value other than 255 (R139). -/
def VehiclePort.goesStale (vp : VehiclePort) : Bool := vp.staleness == 999 && vp.speed != 255

/-- VP's millisecond tick (R135, R139, R141, R142, R148). -/
def VehiclePort.tick (vp : VehiclePort) (statusPeriod : Nat) : VehiclePort :=
  { vp with
    staleness := min (vp.staleness + 1) 1000
    staleDue := vp.staleDue || vp.goesStale
    busOffCount := if vp.busOff then min (vp.busOffCount + 1) 200 else vp.busOffCount
    suppression := vp.suppression.tick suppressionPeriod suppressionGap
    cls := vp.cls.tick statusPeriod statusGap
    belt := vp.belt.tick statusPeriod statusGap
    quality := vp.quality.tick statusPeriod statusGap }

end Sys2Proof.Machine
end

