-- ==== Sys2Proof/Machine/Store.lean ====
section
/-! DEFINITION. The Sample Store: buckets, free list, chains, arrival, the Evaluation Queue and the flush of a position (R49 to R66, R14). -/

namespace Sys2Proof.Machine

/-! ## Moving buckets -/

/-- Return: bucket `b` is pushed at the free-list head (R50). -/
def SampleStore.push (ss : SampleStore) (b : BucketNo) : SampleStore :=
  { ss with buckets := upd ss.buckets b fun k => { k with next := ss.freeHead }, freeHead := b, freeLen := ss.freeLen + 1 }

/-- The oldest bucket of a chain leaves it and is returned; an empty chain has none (R50, R51). -/
def SampleStore.returnHead (ss : SampleStore) (p : Pos) : SampleStore :=
  let c := ss.chains[p]
  if c.len = 0 then ss
  else if c.len = 1 then
    SampleStore.push { ss with chains := ss.chains.set p { c with head := 0, tail := 0, len := 0 } } c.head
  else
    SampleStore.push { ss with chains := ss.chains.set p { c with head := ss.buckets[c.head].next, len := c.len - 1 } } c.head

/-- The `n` oldest buckets of a chain are returned, oldest first; the whole chain when it holds fewer (R50, R59). -/
def SampleStore.returnOldest (ss : SampleStore) (p : Pos) : Nat → SampleStore
  | 0 => ss
  | n + 1 => (ss.returnHead p).returnOldest p n

/-- The bucket contents that a stored sample makes (R49). -/
def filledBucket (x : PlaceSample) (now : Time) : Bucket := { sample := x, time := now, next := 0 }

/-- Take the free-list head, fill it and append it at the chain's tail; called only with a bucket on the free list (R50, R52). -/
def SampleStore.store (ss : SampleStore) (p : Pos) (x : PlaceSample) (now : Time) : SampleStore :=
  let c := ss.chains[p]
  let b := ss.freeHead
  let filled := ss.buckets.set b (filledBucket x now)
  let linked := if c.len = 0 then filled else upd filled c.tail fun k => { k with next := b }
  { ss with
    buckets := linked
    freeHead := ss.buckets[b].next
    freeLen := ss.freeLen - 1
    chains := ss.chains.set p { c with head := if c.len = 0 then b else c.head, tail := b, len := c.len + 1 } }

/-! ## The Evaluation Queue -/

/-- The scheduling test against W (R55). -/
def SampleStore.schedule (ss : SampleStore) (p : Pos) (w : Nat) : SampleStore :=
  let c := ss.chains[p]
  if w ≤ c.len ∧ c.scheduled = false then
    { ss with chains := ss.chains.set p { c with scheduled := true }, evalQueue := ss.evalQueue ++ [p] }
  else ss

/-- SS makes the scheduling test of `p` against W of the bank in force (R55). -/
def State.scheduleTest (s : State) (p : Pos) : State := { s with ss := s.ss.schedule p (s.bankInForce p).w }

/-! ## Arrival -/

/-- What becomes of an arriving sample (R53, R54). -/
inductive Room where
  | store
  | displace
  | drop
  deriving DecidableEq, Repr

/-- SS settles room for a sample of `p`, given the chain cap (R53, R54). -/
def SampleStore.room (ss : SampleStore) (p : Pos) (cap : Nat) : Room :=
  let c := ss.chains[p]
  if c.len = cap then (if c.underEval then .drop else .displace)
  else if ss.freeLen = 0 then .drop
  else .store

/-- A sample of `p` is dropped (R54). -/
def State.dropSample (s : State) (p : Pos) : State :=
  let t := { s with ss := { s.ss with chains := upd s.ss.chains p fun c => { c with loss := true } } }
  if s.cl[p].quality.sampleLoss then t
  else (t.setQuality p fun q => { q with sampleLoss := true }).positionEvent .sampleLoss p 0 0

/-- The arrival of a place sample for `p` (R52 to R55). -/
def State.arrive (s : State) (p : Pos) (x : PlaceSample) : State :=
  let t := match s.ss.room p s.tables.globals.chainCap with
    | .store => { s with ss := s.ss.store p x s.tb.time }
    | .displace => { s with ss := (s.ss.returnHead p).store p x s.tb.time }
    | .drop => s.dropSample p
  t.scheduleTest p

/-! ## Flush -/

/-- SS's part of a flush (R62). -/
def SampleStore.flush (ss : SampleStore) (p : Pos) : SampleStore :=
  let emptied := ss.returnOldest p ss.chains[p].len
  let c := emptied.chains[p]
  let c := { c with head := 0, tail := 0, len := 0, epoch := c.epoch + 1 }
  if c.scheduled && !c.underEval then
    { emptied with
      chains := emptied.chains.set p { c with scheduled := false }
      evalQueue := emptied.evalQueue.filter (· != p) }
  else { emptied with chains := emptied.chains.set p c }

/-- A flush of `p`: the parts of SS and CL, and with `buckle` RU's reset of the buckle (R14). -/
def State.flush (s : State) (p : Pos) (buckle : Bool) : State :=
  let t := { s with ss := s.ss.flush p }
  let t := t.flushClass p
  if buckle then t.resetBuckle p else t

/-- Every position is flushed, ascending (R63). -/
def State.flushAll (s : State) : State := forEach allPos (fun p t => t.flush p false) s

/-- SS clears both loss flags of every position, with no event (R63). -/
def State.clearLosses (s : State) : State :=
  let t := { s with ss := { s.ss with chains := Vector.ofFn fun p => { s.ss.chains[p] with loss := false } } }
  forEach allPos (fun p u => u.setQuality p fun q => { q with sampleLoss := false }) t

/-- SS takes its reset state: the bucket contents stay, their links start anew (R49, R64). -/
def SampleStore.clear (ss : SampleStore) : SampleStore := { buckets := linkedInOrder ss.buckets }

/-- SS takes its reset state, SAMPLE_LOSS among it (R64). -/
def State.resetStore (s : State) : State :=
  forEach allPos (fun p u => u.setQuality p fun q => { q with sampleLoss := false }) { s with ss := s.ss.clear }

end Sys2Proof.Machine
end

