-- ==== Sys2Proof/Machine/Window.lean ====
section
/-! DEFINITION. The Window Evaluator: capture at the start, the arithmetic of a window, and the completion (R57 to R61, R67 to R83). -/

namespace Sys2Proof.Machine

/-! ## Per-sample arithmetic -/

/-- The cells of a place sample, 0 to 5. -/
def allCells : List (Fin 6) := [0, 1, 2, 3, 4, 5]

/-- The net value of cell `c` (R72). -/
def netValue (x : PlaceSample) (e : Evaluation) (c : Fin 6) : Nat := x.cells[c] - e.offsets[c]

/-- The weighted sum (R73). -/
def weightedSum (x : PlaceSample) (e : Evaluation) : Nat := (allCells.map fun c => netValue x e c * e.gains[c]).sum

/-- The sample load, clamped at 16383 (R73). -/
def sampleLoad (x : PlaceSample) (e : Evaluation) : Nat := min (weightedSum x e / 64) 16383

/-- The footprint: the cells at or above cell_on (R74). -/
def footprint (x : PlaceSample) (e : Evaluation) : Nat := (allCells.filter fun c => e.bank.cellOn ≤ netValue x e c).length

/-! ## Per-window figures -/

/-- The mean load, rounded half up (R75). -/
def meanLoad (loads : List Nat) (w : Nat) : Nat := (loads.sum + w / 2) / w

/-- The largest entry, 0 of an empty list. -/
def largest (xs : List Nat) : Nat := xs.foldl max 0

/-- The smallest entry, `top` where none is smaller. -/
def smallest (top : Nat) (xs : List Nat) : Nat := xs.foldl min top

/-- The spread (R76). -/
def spreadOf (loads : List Nat) : Nat := largest loads - smallest 16383 loads

/-- How many samples of a window satisfy `test`. -/
def countOf (window : List PlaceSample) (test : PlaceSample → Bool) : Nat := (window.filter test).length

/-- The window is disturbed: at least half its samples are flagged, or the spread exceeds D_max (R77). -/
def windowDisturbed (window : List PlaceSample) (e : Evaluation) (spread : Nat) : Bool :=
  decide (e.bank.w ≤ 2 * countOf window PlaceSample.disturbed) || decide (e.bank.dMax < spread)

/-- The tag verdict: present with a strict majority of tagged samples, FORWARD only with a strict majority of those (R78, R79). -/
def windowTag (window : List PlaceSample) (w : Nat) : Option Orientation :=
  let tagged := countOf window (·.tag != .none)
  let forward := countOf window (·.tag == .forward)
  if w < 2 * tagged then some (if tagged - forward < forward then .forward else .rearward) else none

/-- The result of a window (R80). -/
def windowResult (window : List PlaceSample) (e : Evaluation) : WindowResult :=
  let loads := window.map fun x => sampleLoad x e
  let spread := spreadOf loads
  { lbar := meanLoad loads e.bank.w
    spread
    fmin := smallest 6 (window.map fun x => footprint x e)
    disturbed := windowDisturbed window e spread
    tag := windowTag window e.bank.w }

/-- The samples of `n` buckets, from bucket `b` along the links (R70). -/
def SampleStore.samplesFrom (ss : SampleStore) (b : BucketNo) : Nat → List PlaceSample
  | 0 => []
  | n + 1 => ss.buckets[b].sample :: ss.samplesFrom ss.buckets[b].next n

/-! ## Start -/

/-- A STEP is in the part of a step that follows its slot visit and poll and comes before its ticks (R39, R65). -/
def State.stepRun (s : State) : Option StepRun :=
  match s.mu.service with
  | some { req := _, work := .stepping run } => some run
  | _ => none

/-- The mode is HOLD and a STEP is in its evaluation phase (R57, R65). -/
def State.inEvaluationPhase (s : State) : Bool :=
  s.mode == .hold && s.lineIdle && match s.stepRun with
    | some run => run.inStep && !run.deadlinesTested
    | none => false

/-- An entry to CONFIG has come due at a completion, before WE takes the next position (R167, R169, log entry 26). -/
def Change.entryDue (c : Change) : Bool := c == .configWaiting true

/-- WE may take the head of the queue (R57). -/
def State.mayEvaluate (s : State) : Bool := s.weIdle && (s.mode == .run || s.inEvaluationPhase) && !s.change.entryDue

/-- The six calibration values of place `q` among the 24 of an entry (R69). -/
def placeSlice (v : Vector Nat 24) (q : Place) : Vector Nat 6 :=
  Vector.ofFn fun c => v[6 * q.val + c.val]'(by have := q.isLt; have := c.isLt; omega)

/-- The calibration entry of a position's station: none when the lookup found none (R69). -/
def State.calibrationOf (s : State) (p : Pos) : Option (Fin 16) :=
  match (s.entry p).station with
  | some st => s.sm.nodes[st].calIndex
  | none => none

/-- What WE captures at the start of an evaluation of `p` (R67 to R69). -/
def State.captureEvaluation (s : State) (p : Pos) : Evaluation :=
  let q := (s.entry p).place
  { pos := p
    epoch := s.ss.chains[p].epoch
    bank := s.bankInForce p
    offsets := match s.calibrationOf p with
      | some e => placeSlice s.tables.calibration[e].offsets q
      | none => Vector.replicate 6 0
    gains := match s.calibrationOf p with
      | some e => placeSlice s.tables.calibration[e].gains q
      | none => Vector.replicate 6 64 }

/-- The chain of `p` holds a full window (R57). -/
def State.windowFull (s : State) (p : Pos) : Bool := decide ((s.bankInForce p).w ≤ s.ss.chains[p].len)

/-- WE takes the head of a queue: a full window starts an evaluation; a stale entry is dropped, and WE looks at the new head at
once (R57). -/
def State.takeHead (s : State) : List Pos → State
  | [] => { s with ss := { s.ss with evalQueue := [] } }
  | p :: rest =>
    if s.windowFull p then
      { s with
        we := some (s.captureEvaluation p)
        ss := { s.ss with evalQueue := rest, chains := upd s.ss.chains p fun c => { c with underEval := true } } }
    else State.takeHead { s with ss := { s.ss with chains := upd s.ss.chains p fun c => { c with scheduled := false } } } rest

/-- WE takes the head of the Evaluation Queue (R57). -/
def State.startEvaluation (s : State) : State := s.takeHead s.ss.evalQueue

/-! ## Completion -/

/-- The loss flags at a valid completion (R59). -/
def State.settleLoss (s : State) (p : Pos) : State :=
  let t := if s.ss.chains[p].loss then s else s.setQuality p fun q => { q with sampleLoss := false }
  { t with ss := { t.ss with chains := upd t.ss.chains p fun c => { c with loss := false } } }

/-- A valid completion: CL acts on the result and the oldest H buckets are returned (R59). -/
def State.validCompletion (s : State) (e : Evaluation) : State :=
  let window := s.ss.samplesFrom s.ss.chains[e.pos].head e.bank.w
  let t := s.classify e.pos e.bank (windowResult window e)
  let t := { t with ss := t.ss.returnOldest e.pos e.bank.h }
  t.settleLoss e.pos

/-- Both evaluation flags of a position are cleared (R61). -/
def SampleStore.clearFlags (ss : SampleStore) (p : Pos) : SampleStore :=
  { ss with chains := upd ss.chains p fun c => { c with underEval := false, scheduled := false } }

/-- The completion of the evaluation in flight: valid when the epoch still equals the captured one, discarded otherwise; then the
flags and the scheduling test (R59 to R61). -/
def State.completeEvaluation (s : State) (e : Evaluation) : State :=
  let t := if s.ss.chains[e.pos].epoch = e.epoch then s.validCompletion e else s
  State.scheduleTest { t with we := none, ss := t.ss.clearFlags e.pos } e.pos

end Sys2Proof.Machine
end

