-- ==== Sys2Proof/Machine/Stations.lean ====
section
/-! DEFINITION. The Station Manager: routing, calibration lookup, place check, and what it does with each reply outcome (R3 to R16). -/

namespace Sys2Proof.Machine

/-- The verdict LC delivers for a poll (R31); GOOD carries the reply's node id, place count and place samples (R32). -/
inductive ReplyOutcome where
  | lineBusy
  | noReply
  | framing
  | length
  | crc
  | badNode
  | sequence
  | hopMismatch
  | good (nodeId : Byte) (places : Nat) (samples : List PlaceSample)
  deriving DecidableEq, Repr

/-- Change the record of a station. -/
def State.setNode (s : State) (st : Station) (f : Node → Node) : State :=
  { s with sm := { s.sm with nodes := upd s.sm.nodes st f } }

/-! ## Routing -/

/-- The routing built from the Position Table: each fitted position under its station and place (R3). -/
def Tables.buildRouting (t : Tables) : Vector (Vector (Option Pos) 4) 8 :=
  Vector.ofFn fun st => Vector.ofFn fun q =>
    allPos.find? fun p => t.positions[p].station == some st && t.positions[p].place == q

/-- An empty routing (R3). -/
def emptyRouting : Vector (Vector (Option Pos) 4) 8 := Vector.replicate 8 (Vector.replicate 4 none)

/-- The place of `p` in the routing of station `st`, if it is mapped there (R3). -/
def State.routedPlace (s : State) (st : Station) (p : Pos) : Option Place :=
  ([0, 1, 2, 3] : List Place).find? fun q => s.sm.routing[st][q] == some p

/-- The positions the routing maps to a station, ascending (R3). -/
def State.routedPositions (s : State) (st : Station) : List Pos := allPos.filter fun p => (s.routedPlace st p).isSome

/-! ## Calibration lookup and place check -/

/-- The entry whose node id is `n` (R13). -/
def Tables.findCalibration (t : Tables) (n : Byte) : Option (Fin 16) := allPos.find? fun e => t.calibration[e].nodeId == n

/-- A calibration lookup for the station's node id; DEFAULT_CAL of its routed positions follows (R13). -/
def State.lookupCalibration (s : State) (st : Station) : State :=
  let found := s.tables.findCalibration s.sm.nodes[st].nodeId
  let t := s.setNode st fun n => { n with calIndex := found }
  forEach (t.routedPositions st) (fun p u => u.setQuality p fun q => { q with defaultCal := found.isNone }) t

/-- CAL_MISSING is queued when the station's calibration index is none (R5, R11, R13). -/
def State.reportCalMissing (s : State) (st : Station) : State :=
  if s.sm.nodes[st].calIndex.isNone then s.stationEvent .calMissing st s.sm.nodes[st].nodeId 0 else s

/-- The place check of one routed position (R12). -/
def State.checkPlace (s : State) (st : Station) (p : Pos) : State :=
  match s.routedPlace st p with
  | none => s
  | some q =>
    let places := s.sm.nodes[st].places
    if places ≤ q.val then
      (s.setQuality p fun k => { k with linkDown := true }).positionEvent .placeMissing p (byteOf places) 0
    else s.setQuality p fun k => { k with linkDown := false }

/-- The place check of a station (R12). -/
def State.placeCheck (s : State) (st : Station) : State :=
  forEach (s.routedPositions st) (fun p u => u.checkPlace st p) s

/-- DEFAULT_CAL of the routed positions follows the station's index (R5, R11, R13). -/
def State.reviewDefaultCal (s : State) (st : Station) : State :=
  forEach (s.routedPositions st) (fun p u =>
    u.setQuality p fun q => { q with defaultCal := s.sm.nodes[st].calIndex.isNone }) s

/-! ## Transitions of a station -/

/-- The event of an activation (R5). -/
def State.activationEvent (s : State) (st : Station) (old : Node) (nodeId : Byte) (places : Nat) : State :=
  match old.state with
  | .linkLost =>
    if old.nodeId = nodeId then s.stationEvent .linkRestored st nodeId 0
    else s.stationEvent .seatChanged st old.nodeId nodeId
  | .absent | .active => s.stationEvent .stationFound st nodeId (byteOf places)

/-- An activation (R5). -/
def State.activate (s : State) (st : Station) (nodeId : Byte) (places latency : Nat) : State :=
  let old := s.sm.nodes[st]
  let t := s.setNode st fun n =>
    { n with state := .active, nodeId, places, misses := 0, latency, hopReported := false }
  let t := t.lookupCalibration st
  let t := t.activationEvent st old nodeId places
  let t := t.reportCalMissing st
  (t.placeCheck st).reviewDefaultCal st

/-- The positions of a station are flushed for a link loss or a seat change, ascending (R10, R11, R14). -/
def State.flushStation (s : State) (st : Station) : State :=
  forEach (s.routedPositions st) (fun p u => u.flush p true) s

/-- A seat change (R11). -/
def State.seatChange (s : State) (st : Station) (nodeId : Byte) (places latency : Nat) : State :=
  let t := s.flushStation st
  let old := t.sm.nodes[st].nodeId
  let t := t.setNode st fun n => { n with nodeId, places, misses := 0, latency, hopReported := false }
  let t := t.lookupCalibration st
  let t := t.stationEvent .seatChanged st old nodeId
  let t := t.reportCalMissing st
  (t.placeCheck st).reviewDefaultCal st

/-- A link loss (R10). -/
def State.linkLoss (s : State) (st : Station) : State :=
  let t := s.setNode st fun n => { n with state := .linkLost }
  let t := t.flushStation st
  let t := forEach (t.routedPositions st) (fun p u => u.setQuality p fun q => { q with linkDown := true }) t
  t.stationEvent .linkLost st 0 0

/-- The count of a miss, and the link loss at the retry limit (R8). -/
def State.miss (s : State) (st : Station) : State :=
  let t := s.setNode st fun n => { n with misses := min (n.misses + 1) 15 }
  if t.tables.globals.retryLimit ≤ t.sm.nodes[st].misses then t.linkLoss st else t

/-- HOP_MISMATCH writes the latency and is reported once until the flag is cleared (R8). The latency's bits 0 to 7 and 8 to 9 are
the two detail bytes (R177). -/
def State.noteHop (s : State) (st : Station) (latency : Nat) : State :=
  let reported := s.sm.nodes[st].hopReported
  let t := s.setNode st fun n => { n with latency, hopReported := true }
  if reported then t else t.stationEvent .hopMismatch st (byteOf (latency % 256)) (byteOf (latency / 256))

/-- A good reply writes the latency and clears hop-mismatch reported (R6, R7). -/
def Node.goodReply (n : Node) (latency : Nat) : Node := { n with latency, hopReported := false }

/-- The place samples of a reply go to the positions that the routing names: to SS and to RU (R7). -/
def State.deliverSamples (s : State) (st : Station) (samples : List PlaceSample) : State :=
  forEach (([0, 1, 2, 3] : List Place).zip samples) (fun kx u =>
    match u.sm.routing[st][kx.1] with
    | some p => (u.arrive p kx.2).buckleReading p kx.2.buckle
    | none => u) s

/-- A GOOD outcome of an IDENTIFY poll to an ACTIVE station (R6). -/
def State.identifyActive (s : State) (st : Station) (nodeId : Byte) (places latency : Nat) : State :=
  let n := s.sm.nodes[st]
  if n.nodeId = nodeId ∧ n.places = places then s.setNode st fun n => { n.goodReply latency with misses := 0 }
  else s.seatChange st nodeId places latency

/-- A GOOD outcome of a SAMPLE poll to an ACTIVE station (R7). -/
def State.sampleActive (s : State) (st : Station) (nodeId : Byte) (places latency : Nat) (samples : List PlaceSample) : State :=
  let n := s.sm.nodes[st]
  if n.nodeId ≠ nodeId then s.seatChange st nodeId places latency
  else if n.places ≠ places then (s.setNode st fun n => n.goodReply latency).miss st
  else (s.setNode st fun n => { n.goodReply latency with misses := 0 }).deliverSamples st samples

/-- SM acts on the outcome of a poll (R5 to R9). -/
def State.takeOutcome (s : State) (st : Station) (kind : PollKind) (latency : Nat) (o : ReplyOutcome) : State :=
  match s.sm.nodes[st].state, o with
  | .active, .good nodeId places samples =>
    match kind with
    | .identify => s.identifyActive st nodeId places latency
    | .sample => s.sampleActive st nodeId places latency samples
  | .active, .hopMismatch => (s.noteHop st latency).miss st
  | .active, _ => s.miss st
  | _, .good nodeId places _ =>
    match kind with
    | .identify => s.activate st nodeId places latency
    | .sample => s
  | _, _ => s

/-! ## Entry to RUN -/

/-- The lookup of one station at entry to RUN (R15). -/
def State.runLookup (s : State) (st : Station) : State :=
  if s.sm.nodes[st].state = .active then
    ((s.setNode st fun n => { n with misses := 0 }).lookupCalibration st).reportCalMissing st
  else s

/-- LINK_DOWN of a fitted position whose station is not ACTIVE (R15). -/
def State.runLinkDown (s : State) (p : Pos) : State :=
  match (s.entry p).station with
  | some st =>
    if s.sm.nodes[st].state = .active then s else s.setQuality p fun q => { q with linkDown := true }
  | none => s

/-- SM's part of an entry to RUN (R15). The stations are looked up in ascending order, which is the order of their CAL_MISSING events
(log entry 35). -/
def State.stationsEnterRun (s : State) : State :=
  let t := { s with sm := { s.sm with routing := s.tables.buildRouting } }
  let t := forEach allStations (fun st u => u.runLookup st) t
  let t := forEach allStations (fun st u => if u.sm.nodes[st].state = .active then u.placeCheck st else u) t
  forEach allPos (fun p u => u.runLinkDown p) t

end Sys2Proof.Machine
end

