-- ==== Sys2Proof/Machine/Operands.lean ====
section
/-! DEFINITION. The words of the tables and the views: addresses, bit fields, ranges, reading and storing (R154 to R158, R178 to R180). -/

namespace Sys2Proof.Machine

/-! ## Addresses -/

/-- A word of a table or a view that exists (R154). -/
inductive Address where
  | position (p : Pos) (w : Fin 4)
  | calibration (e : Fin 16) (w : Fin 49)
  | bank (name : BankName) (w : Fin 9)
  | profile (e : Fin 4) (w : Fin 9)
  | schedule (i : Fin 64)
  | globals (w : Fin 11)
  | input (e : Fin 2) (w : Fin 2)
  | override (e : Fin 7) (w : Fin 2)
  | node (e : Station) (w : Fin 6)
  | context (p : Pos) (w : Fin 12)
  deriving DecidableEq, Repr

/-- A number below `n` as an index. -/
def index (n k : Nat) : Option (Fin n) := if h : k < n then some ⟨k, h⟩ else none

/-- The address that an entry and a word make, when both lie within a table's shape (R154). -/
def addressIn {n m : Nat} (make : Fin n → Fin m → Address) (e w : Byte) : Option Address :=
  match index n e.toNat, index m w.toNat with
  | some i, some j => some (make i j)
  | _, _ => none

/-- The item that a table id, an entry and a word name (R154). -/
def address (id e w : Byte) : Option Address :=
  match id.toNat with
  | 1 => addressIn .position e w
  | 2 => addressIn .calibration e w
  | 3 => addressIn (n := 1) (fun _ => .bank .a) e w
  | 4 => addressIn (n := 1) (fun _ => .bank .b) e w
  | 5 => addressIn .profile e w
  | 6 => addressIn (m := 1) (fun i _ => .schedule i) e w
  | 7 => addressIn (n := 1) (fun _ => .globals) e w
  | 8 => addressIn .input e w
  | 9 => addressIn .override e w
  | 10 => addressIn .node e w
  | 11 => addressIn .context e w
  | _ => none

/-- A request may touch the item: the operational identifier may not touch a service-only one (R155). -/
def mayTouch (level : Level) (a : Address) : Bool :=
  match level, a with
  | .service, _ => true
  | .operational, .calibration _ _ => false
  | .operational, .position _ w => w != 3
  | .operational, _ => true

/-- The item is a view, which cannot be written (R154). -/
def Address.isView : Address → Bool
  | .node _ _ => true
  | .context _ _ => true
  | _ => false

/-- The modes in which a table is writable (R156). -/
def Address.writableIn (a : Address) (m : Mode) : Bool :=
  match a with
  | .bank _ _ => m != .run
  | .profile _ _ => m != .run
  | .override _ w => w == 1 || m != .run
  | .position _ _ | .calibration _ _ | .schedule _ | .globals _ | .input _ _ => m == .config
  | .node _ _ | .context _ _ => false

/-! ## Bit fields and ranges -/

/-- A field of a word: `width` bits from bit `lo`, with its range (R157, R178). -/
structure Field where
  lo : Nat
  width : Nat
  least : Nat
  most : Nat
  /-- A value above `most` that the field also takes. -/
  also : Option Nat := none
  deriving DecidableEq, Repr

/-- Bits `lo` to `lo + width - 1` of a word, as a number. -/
def bits (v : Word) (lo width : Nat) : Nat := v.toNat / 2 ^ lo % 2 ^ width

/-- The value of a field. -/
def Field.value (f : Field) (v : Word) : Nat := bits v f.lo f.width

/-- The field's value lies in its range (R157). -/
def Field.ok (f : Field) (v : Word) : Bool :=
  (decide (f.least ≤ f.value v) && decide (f.value v ≤ f.most)) || f.also == some (f.value v)

/-- A field that starts at bit 0. -/
def low (width least most : Nat) : Field := { lo := 0, width, least, most }

/-- The one field of each word of a threshold bank (R157, R178). -/
def bankLayout (w : Fin 9) : Field :=
  match w with
  | 0 => low 5 2 16
  | 1 => low 5 1 16
  | 2 => low 10 0 1023
  | 3 => low 3 1 6
  | 4 => low 14 0 16383
  | 5 => low 14 0 16383
  | 6 => low 10 0 1023
  | 7 => low 14 0 16383
  | 8 => low 4 1 15

/-- The one field of each word of a reminder profile (R157, R178). -/
def profileLayout (w : Fin 9) : Field :=
  match w with
  | 0 => low 8 1 255
  | 1 => low 8 0 255
  | 2 => low 8 1 255
  | 3 => low 8 1 255
  | 4 => low 8 0 255
  | 5 => low 1 0 1
  | 6 => low 8 2 255
  | 7 => low 8 0 255
  | 8 => low 8 0 255

/-- The one field of each word of the Global Settings (R157, R178). -/
def globalsLayout (w : Fin 11) : Field :=
  match w with
  | 0 => low 4 2 8
  | 1 => low 4 1 15
  | 2 => low 5 1 16
  | 3 => low 7 8 64
  | 4 => low 4 1 15
  | 5 => low 8 2 200
  | 6 => low 1 0 1
  | 7 => low 8 2 255
  | 8 => low 8 0 255
  | 9 => low 8 0 255
  | 10 => low 7 1 64

/-- The fields of a Position Table word (R157, R178). -/
def positionLayout (w : Fin 4) : List Field :=
  match w with
  | 0 => [low 4 0 8, { lo := 4, width := 2, least := 0, most := 3 }]
  | 1 =>
    [{ lo := 0, width := 3, least := 0, most := 5, also := some 7 },
     { lo := 4, width := 2, least := 0, most := 3 },
     { lo := 6, width := 1, least := 0, most := 1 },
     { lo := 8, width := 1, least := 0, most := 1 },
     { lo := 9, width := 1, least := 0, most := 1 }]
  | 2 => [low 4 0 15]
  | 3 => [low 1 0 1]

/-- The field of a Calibration Table word (R157, R178). -/
def calibrationLayout (w : Fin 49) : Field :=
  if w.val = 0 then low 8 0 254 else if w.val ≤ 24 then low 10 0 1023 else low 8 0 255

/-- The fields of a table word; a view has none that can be written (R157, R178). -/
def Address.layout (a : Address) : List Field :=
  match a with
  | .position _ w => positionLayout w
  | .calibration _ w => [calibrationLayout w]
  | .bank _ w => [bankLayout w]
  | .profile _ w => [profileLayout w]
  | .schedule _ => [low 4 0 8]
  | .globals w => [globalsLayout w]
  | .input _ w => if w = 0 then [low 11 0 2047] else [low 3 0 7]
  | .override _ _ => [low 1 0 1]
  | .node _ _ => []
  | .context _ _ => []

/-- Every field lies in its range and every unused bit is 0 (R157). -/
def inRange (fields : List Field) (v : Word) : Bool :=
  fields.all (fun f => f.ok v) && (fields.map fun f => f.value v * 2 ^ f.lo).sum == v.toNat

/-! ## Encodings of single fields -/

/-- A number as a table word. -/
def wordOf (n : Nat) : Word := BitVec.ofNat 16 n

/-- A station as a table carries it: 0 for none (R178). -/
def stationCode : Option Station → Nat
  | some s => stationNumber s
  | none => 0

/-- The station that a table value of 0 to 8 names (R178). -/
def stationOf (n : Nat) : Option Station := if n = 0 then none else some (Fin.ofNat 8 (n - 1))

/-- A lamp group as the table carries it: 7 for none (R178). -/
def groupCode : Option (Fin 6) → Nat
  | some g => g.val
  | none => 7

/-- The lamp group that a table value of 0 to 5 or 7 names (R178). -/
def groupOf (n : Nat) : Option (Fin 6) := if n < 6 then some (Fin.ofNat 6 n) else none

/-- A bank's name as the table carries it (R178). -/
def BankName.code : BankName → Nat
  | .a => 0
  | .b => 1

/-- The bank that a bank-select bit names (R178). -/
def bankOf (n : Nat) : BankName := if n = 0 then .a else .b

/-! ## Reading the tables -/

/-- A Position Table word (R178). -/
def PositionEntry.read (e : PositionEntry) (w : Fin 4) : Nat :=
  match w with
  | 0 => stationCode e.station + 16 * e.place.val
  | 1 => groupCode e.lampGroup + 16 * e.profile.val + 64 * e.bank.code + 256 * flag e.applicable + 512 * flag e.childCheck
  | 2 => e.chimePriority
  | 3 => flag e.airbag

/-- A Calibration Table word (R178). -/
def CalibrationEntry.read (e : CalibrationEntry) (w : Fin 49) : Nat :=
  if w.val = 0 then e.nodeId.toNat
  else if w.val ≤ 24 then e.offsets[Fin.ofNat 24 (w.val - 1)]
  else e.gains[Fin.ofNat 24 (w.val - 25)]

/-- A threshold bank word (R178). -/
def Thresholds.read (b : Thresholds) (w : Fin 9) : Nat :=
  match w with
  | 0 => b.w
  | 1 => b.h
  | 2 => b.cellOn
  | 3 => b.fPerson
  | 4 => b.tObj
  | 5 => b.tAdult
  | 6 => b.hm
  | 7 => b.dMax
  | 8 => b.c

/-- A reminder profile word (R178). -/
def Profile.read (f : Profile) (w : Fin 9) : Nat :=
  match w with
  | 0 => f.speedOn
  | 1 => f.pendingDelay
  | 2 => f.stage1
  | 3 => f.stage2Max
  | 4 => f.grace
  | 5 => flag f.retrigger
  | 6 => f.chimeTotal
  | 7 => f.chimeStart
  | 8 => f.chimeEnd

/-- A Global Settings word (R178). -/
def GlobalSettings.read (g : GlobalSettings) (w : Fin 11) : Nat :=
  match w with
  | 0 => g.slotPeriod
  | 1 => g.retryLimit
  | 2 => g.probeDivider
  | 3 => g.chainCap
  | 4 => g.roughLimit
  | 5 => g.statusPeriod
  | 6 => flag g.bankBEnable
  | 7 => g.flashTotal
  | 8 => g.flashStart
  | 9 => g.flashEnd
  | 10 => g.scheduleLength

/-- A Vehicle Inputs word (R178). -/
def VehicleInput.read (i : VehicleInput) (w : Fin 2) : Nat := if w = 0 then i.ident.toNat else i.byteIndex.val

/-- An Output Overrides word: the stored value and not the level of the line (R159, R178). -/
def Override.read (o : Override) (w : Fin 2) : Nat := if w = 0 then flag o.enable else flag o.latched

/-! ## The views -/

/-- The code of a station state (R179). -/
def StationState.code : StationState → Nat
  | .absent => 0
  | .active => 1
  | .linkLost => 2

/-- A Node Map view word (R179). -/
def Node.view (n : Node) (w : Fin 6) : Nat :=
  match w with
  | 0 => n.state.code + 16 * n.places + 256 * n.nodeId.toNat
  | 1 => match n.calIndex with
    | some i => i.val
    | none => 0xFF
  | 2 => n.misses + 16 * flag n.hopReported
  | 3 => n.sequence.toNat
  | 4 => n.latency
  | 5 => n.probe

/-- The code of a reminder state (R180). -/
def Reminder.code : Reminder → Nat
  | .inactive => 0
  | .buckled => 1
  | .pending => 2
  | .stage1 => 3
  | .stage2 => 4
  | .expired => 5
  | .suspended => 6

/-- The class code of a candidate; none reads 0 (R180). -/
def candidateCode : Option Cls → Nat
  | some c => c.code
  | none => 0

/-- The code of a remembered state; none reads 0 (R180). -/
def rememberedCode : Option Reminder → Nat
  | some r => r.code
  | none => 0

/-- A Position Context view word (R180). -/
def State.contextWord (s : State) (p : Pos) (w : Fin 12) : Nat :=
  let k := s.cl[p]
  let c := s.ss.chains[p]
  let b := s.ru.buckles[p]
  let r := s.ru.records[p]
  match w with
  | 0 => k.committed.code + 16 * candidateCode k.candidate + 256 * k.confirm + 4096 * k.disturbedRun
  | 1 => k.lastL + 16384 * k.supp.code
  | 2 => k.lastD + 16384 * flag c.scheduled + 32768 * flag c.underEval
  | 3 => k.lastF + 8 * flag c.loss + 16 * k.lastRaw.code + 256 * k.quality.nibble
      + 4096 * readingCode b.confirmed + 16384 * readingCode b.last
  | 4 => c.head.val + 256 * c.tail.val
  | 5 => c.len + 256 * c.epoch.toNat
  | 6 => r.timer + 4096 * r.state.code + 32768 * flag r.deadline.isSome
  | 7 => rememberedCode r.remembered + 16 * readingCode b.captureState + 256 * b.captureSpeed.toNat
  | 8 => b.captureTime.toNat % 65536
  | 9 => if c.len = 0 then 0 else s.ss.buckets[c.tail].time.toNat % 65536
  | 10 => match r.deadline with
    | some d => d.toNat % 65536
    | none => 0
  | 11 => match r.deadline with
    | some d => d.toNat / 65536
    | none => 0

/-- The value of a table or view word as it stands (R159). -/
def State.readAt (s : State) (a : Address) : Word :=
  wordOf (match a with
    | .position p w => s.tables.positions[p].read w
    | .calibration e w => s.tables.calibration[e].read w
    | .bank name w => (s.tables.bank name).read w
    | .profile e w => s.tables.profiles[e].read w
    | .schedule i => stationCode s.tables.schedule[i]
    | .globals w => s.tables.globals.read w
    | .input e w => if e = 0 then s.tables.speedInput.read w else s.tables.powerInput.read w
    | .override e w => s.ou.overrides[e].read w
    | .node e w => s.sm.nodes[e].view w
    | .context p w => s.contextWord p w)

/-! ## Storing -/

/-- Store a Position Table word (R178). -/
def PositionEntry.store (e : PositionEntry) (w : Fin 4) (v : Word) : PositionEntry :=
  match w with
  | 0 => { e with station := stationOf (bits v 0 4), place := Fin.ofNat 4 (bits v 4 2) }
  | 1 =>
    { e with
      lampGroup := groupOf (bits v 0 3)
      profile := Fin.ofNat 4 (bits v 4 2)
      bank := bankOf (bits v 6 1)
      applicable := bits v 8 1 == 1
      childCheck := bits v 9 1 == 1 }
  | 2 => { e with chimePriority := bits v 0 4 }
  | 3 => { e with airbag := bits v 0 1 == 1 }

/-- Store a Calibration Table word (R178). -/
def CalibrationEntry.store (e : CalibrationEntry) (w : Fin 49) (v : Word) : CalibrationEntry :=
  if w.val = 0 then { e with nodeId := byteOf (bits v 0 8) }
  else if w.val ≤ 24 then { e with offsets := e.offsets.set (Fin.ofNat 24 (w.val - 1)) (bits v 0 10) }
  else { e with gains := e.gains.set (Fin.ofNat 24 (w.val - 25)) (bits v 0 8) }

/-- Store a threshold bank word (R178). -/
def Thresholds.store (b : Thresholds) (w : Fin 9) (v : Word) : Thresholds :=
  match w with
  | 0 => { b with w := bits v 0 5 }
  | 1 => { b with h := bits v 0 5 }
  | 2 => { b with cellOn := bits v 0 10 }
  | 3 => { b with fPerson := bits v 0 3 }
  | 4 => { b with tObj := bits v 0 14 }
  | 5 => { b with tAdult := bits v 0 14 }
  | 6 => { b with hm := bits v 0 10 }
  | 7 => { b with dMax := bits v 0 14 }
  | 8 => { b with c := bits v 0 4 }

/-- Store a reminder profile word (R178). -/
def Profile.store (f : Profile) (w : Fin 9) (v : Word) : Profile :=
  let n := bits v 0 8
  match w with
  | 0 => { f with speedOn := n }
  | 1 => { f with pendingDelay := n }
  | 2 => { f with stage1 := n }
  | 3 => { f with stage2Max := n }
  | 4 => { f with grace := n }
  | 5 => { f with retrigger := bits v 0 1 == 1 }
  | 6 => { f with chimeTotal := n }
  | 7 => { f with chimeStart := n }
  | 8 => { f with chimeEnd := n }

/-- Store a Global Settings word (R178). -/
def GlobalSettings.store (g : GlobalSettings) (w : Fin 11) (v : Word) : GlobalSettings :=
  match w with
  | 0 => { g with slotPeriod := bits v 0 4 }
  | 1 => { g with retryLimit := bits v 0 4 }
  | 2 => { g with probeDivider := bits v 0 5 }
  | 3 => { g with chainCap := bits v 0 7 }
  | 4 => { g with roughLimit := bits v 0 4 }
  | 5 => { g with statusPeriod := bits v 0 8 }
  | 6 => { g with bankBEnable := bits v 0 1 == 1 }
  | 7 => { g with flashTotal := bits v 0 8 }
  | 8 => { g with flashStart := bits v 0 8 }
  | 9 => { g with flashEnd := bits v 0 8 }
  | 10 => { g with scheduleLength := bits v 0 7 }

/-- Store a Vehicle Inputs word (R178). -/
def VehicleInput.store (i : VehicleInput) (w : Fin 2) (v : Word) : VehicleInput :=
  if w = 0 then { i with ident := BitVec.ofNat 11 (bits v 0 11) } else { i with byteIndex := Fin.ofNat 8 (bits v 0 3) }

/-- Store an Output Overrides word (R178). -/
def Override.store (o : Override) (w : Fin 2) (v : Word) : Override :=
  if w = 0 then { o with enable := bits v 0 1 == 1 } else { o with latched := bits v 0 1 == 1 }

/-- Store a word of the tables MU holds; the Output Overrides and the views are not among them (R160, R178). -/
def Tables.store (t : Tables) (a : Address) (v : Word) : Tables :=
  match a with
  | .position p w => { t with positions := upd t.positions p fun e => e.store w v }
  | .calibration e w => { t with calibration := upd t.calibration e fun k => k.store w v }
  | .bank .a w => { t with bankA := t.bankA.store w v }
  | .bank .b w => { t with bankB := t.bankB.store w v }
  | .profile e w => { t with profiles := upd t.profiles e fun f => f.store w v }
  | .schedule i => { t with schedule := t.schedule.set i (stationOf (bits v 0 4)) }
  | .globals w => { t with globals := t.globals.store w v }
  | .input 0 w => { t with speedInput := t.speedInput.store w v }
  | .input 1 w => { t with powerInput := t.powerInput.store w v }
  | .override _ _ | .node _ _ | .context _ _ => t

/-! ## Conflicts -/

/-- The lowest other position with this station and place (R2, R158). -/
def Tables.samePlace (t : Tables) (p : Pos) (v : Word) : Option Pos :=
  match stationOf (bits v 0 4) with
  | none => none
  | some st => allPos.find? fun q =>
      q != p && t.positions[q].station == some st && t.positions[q].place.val == bits v 4 2

/-- The lower of two other airbag-relevant positions, where a flag of 1 would make a third (R2, R158). -/
def Tables.thirdAirbag (t : Tables) (p : Pos) (v : Word) : Option Pos :=
  match allPos.filter fun q => q != p && t.positions[q].airbag with
  | a :: _ :: _ => if bits v 0 1 = 1 then some a else none
  | _ => none

/-- The other calibration entry with this node id (R158). -/
def Tables.sameNode (t : Tables) (e : Fin 16) (v : Word) : Option (Fin 16) :=
  if bits v 0 8 = 0 then none
  else allPos.find? fun k => k != e && t.calibration[k].nodeId.toNat == bits v 0 8

/-- The entry that a write conflicts with, if any (R158). -/
def Tables.conflict (t : Tables) (a : Address) (v : Word) : Option (Fin 16) :=
  match a with
  | .position p 0 => t.samePlace p v
  | .position p 3 => t.thirdAirbag p v
  | .calibration e 0 => t.sameNode e v
  | _ => none

end Sys2Proof.Machine
end

