-- ==== Sys2Proof/Machine/Line.lean ====
section
/-! DEFINITION. The Line Controller: the line's samples, poll and reply frames, their checks, and the outcome of a poll (R17 to R34). -/

namespace Sys2Proof.Machine

/-! ## The constants of the Seat Line, in quarter-bit ticks -/

/-- The idle run that lets a poll be sent (R18). -/
def idleToSend : Nat := 80
/-- The idle run that ends a reply (R18). -/
def idleToEnd : Nat := 120
/-- The wait for an idle line: 200 bit times from the slot start (R20). -/
def busyLimit : Nat := 800
/-- The four bytes of a poll: 40 bit times (R17). -/
def pollTicks : Nat := 160
/-- The reply window: a start bit's first low sample has latency 0 to 400 (R24). -/
def windowTicks : Nat := 400
/-- The reception limit: 700 bit times from the poll end (R27). -/
def receptionTicks : Nat := 2800
/-- The stop bit is sampled this many ticks after the first low sample of the start bit (R17). -/
def stopTick : Nat := 38
/-- The receive frame buffer (R19). -/
def bufferSize : Nat := 48
/-- SYNC (R21, R23). -/
def sync : Byte := 0xB4

/-! ## Check codes -/

/-- One shift of the CRC-8 remainder (R22). -/
def crc8Shift (r : Byte) : Byte := if r.msb then (r <<< 1) ^^^ 0x07 else r <<< 1

/-- One shift of the CRC-16 remainder (R28). -/
def crc16Shift (r : Word) : Word := if r.msb then (r <<< 1) ^^^ 0x1021 else r <<< 1

/-- Apply `f` `n` times. -/
def times {α : Type} (f : α → α) : Nat → α → α
  | 0, a => a
  | n + 1, a => times f n (f a)

/-- The CRC-8 of some bytes (R22). -/
def crc8 (bytes : List Byte) : Byte := bytes.foldl (fun r b => times crc8Shift 8 (r ^^^ b)) 0

/-- The CRC-16 of some bytes (R28). -/
def crc16 (bytes : List Byte) : Word :=
  bytes.foldl (fun r b => times crc16Shift 8 (r ^^^ ((b.setWidth 16 : Word) <<< (8 : Nat)))) 0xFFFF

/-! ## Frames -/

/-- The kind nibble of a poll (R21). -/
def PollKind.code : PollKind → Nat
  | .sample => 1
  | .identify => 2

/-- KIND_SEQ (R21). -/
def kindSeq (kind : PollKind) (sequence : BitVec 4) : Byte := byteOf (16 * kind.code + sequence.toNat)

/-- The four bytes of a poll (R21). -/
def pollFrame (st : Station) (kind : PollKind) (sequence : BitVec 4) : List Byte :=
  let hop := byteOf (stationNumber st)
  let ks := kindSeq kind sequence
  [sync, hop, ks, crc8 [hop, ks]]

/-- The ten bit times of a byte on the line: start bit, data bits from the least significant, stop bit (R17). -/
def byteLevels (b : Byte) : List Bool := false :: ([0, 1, 2, 3, 4, 5, 6, 7] : List Nat).map b.getLsbD ++ [true]

/-- The length of a reply as its own bytes decide it, once byte 3 is stored; none while it is unknown or open (R26). -/
def expectedLength (bytes : List Byte) : Option Nat :=
  match bytes with
  | _ :: _ :: ks :: places :: _ =>
    let nibble := ks.toNat / 16
    if nibble = 1 ∧ 1 ≤ places.toNat ∧ places.toNat ≤ 4 then some (4 + 9 * places.toNat + 2)
    else if nibble = 2 then some 7
    else none
  | _ => none

/-- The tag reading of two bits (R32). -/
def tagOf (n : Nat) : Tag :=
  match n with
  | 0 => .none
  | 1 => .rearward
  | 2 => .forward
  | _ => .unreadable

/-- The buckle reading of record byte 8 (R32). -/
def readingOf (b : Byte) : Reading := if b = 0 then .opened else if b = 1 then .latched else .fault

/-- Bytes as one little-endian number (R32). -/
def littleEndian (bytes : List Byte) : Nat := bytes.foldr (fun b n => b.toNat + 256 * n) 0

/-- The place sample of a nine-byte place record (R32). -/
def decodeRecord (bytes : List Byte) : PlaceSample :=
  let v := littleEndian (bytes.take 8)
  { cells := Vector.ofFn fun c => v / 2 ^ (10 * c.val) % 1024
    tag := tagOf (v / 2 ^ 60 % 4)
    disturbed := v / 2 ^ 62 % 2 == 1
    buckle := readingOf (bytes.getD 8 0) }

/-- The place samples of a sample reply, in place order (R32). -/
def placeSamples (buffer : List Byte) (places : Nat) : List PlaceSample :=
  (List.range places).map fun k => decodeRecord ((buffer.drop (4 + 9 * k)).take 9)

/-- The expected latency of a station (R30). -/
def expectedLatency (st : Station) : Nat := 80 + 16 * stationNumber st

/-- The latency lies within 4 ticks of the expected one (R30). -/
def hopOk (st : Station) (latency : Nat) : Bool :=
  decide (expectedLatency st ≤ latency + 4) && decide (latency ≤ expectedLatency st + 4)

/-- The check bytes of a frame are right (R28). -/
def crcOk (buffer : List Byte) : Bool :=
  let n := buffer.length
  crc16 ((buffer.take (n - 2)).drop 1) == (buffer.getD (n - 2) 0) ++ (buffer.getD (n - 1) 0)

/-- NODE and PLACES are in range (R29). -/
def nodeOk (buffer : List Byte) : Bool :=
  let node := (buffer.getD 1 0).toNat
  let places := (buffer.getD 3 0).toNat
  decide (1 ≤ node) && decide (node ≤ 254) && decide (1 ≤ places) && decide (places ≤ 4)

/-- KIND_SEQ echoes the poll (R29). -/
def sequenceOk (poll : Poll) (buffer : List Byte) : Bool :=
  match poll.sequenceSent with
  | some q => buffer.getD 2 0 == kindSeq poll.kind q
  | none => false

/-- The outcome of a whole frame: the first check that fails (R28 to R31). -/
def frameOutcome (poll : Poll) (buffer : List Byte) : ReplyOutcome :=
  if !crcOk buffer then .crc
  else if !nodeOk buffer then .badNode
  else if !sequenceOk poll buffer then .sequence
  else if !hopOk poll.station (poll.latency.getD 0) then .hopMismatch
  else
    let places := (buffer.getD 3 0).toNat
    .good (buffer.getD 1 0) places (match poll.kind with
      | .sample => placeSamples buffer places
      | .identify => [])

/-- The outcome of a reception that idle or the limit ends (R27). -/
def endedOutcome (poll : Poll) (buffer : List Byte) : ReplyOutcome :=
  match expectedLength buffer with
  | some _ => .length
  | none => if buffer.length < 6 then .length else frameOutcome poll buffer

/-! ## The line's samples -/

/-- The samples of the line matter to a reply: its window is open or it is being received (R24, R33). -/
def LineController.watching (l : LineController) : Bool :=
  match l.poll with
  | some p => p.phase == .listening || p.phase == .receiving
  | none => false

/-- A byte of the reply is being read: its start bit is taken and its stop bit is not yet read (R25). -/
def LineController.inByte (l : LineController) : Bool :=
  match l.poll with
  | some p => p.phase == .receiving && p.byteStart.isSome
  | none => false

/-- No sample of the reply window has been low yet (R18). -/
def LineController.windowFresh (l : LineController) : Bool :=
  match l.poll with
  | some p => p.phase == .listening && p.windowFresh
  | none => false

/-- The candidate start bit after a sample at level `b`. The sample two ticks after its first low one settles a pending candidate:
high rejects it, low confirms it, and a confirmed start bit counts only where a reply is awaited or received (R33). With none
pending, a low sample that follows a high one, or is the first low one of a reply window, begins one; inside a byte LC looks for
none (R17, R18). -/
def LineController.candidateAfter (l : LineController) (b : Bool) : Option Nat :=
  match l.candidate with
  | some c => if l.clock < c + 2 then some c else if b || !l.watching then none else some c
  | none => if !b && !l.inByte && (decide (0 < l.idleRun) || l.windowFresh) then some l.clock else none

/-- Sample number `n` is one of those that give the data bits of the byte being read: 6, 10, … 34 ticks after the first low sample
of its start bit (R17). -/
def Poll.readsBit (p : Poll) (n : Nat) : Bool :=
  match p.byteStart with
  | some c => decide (c + 6 ≤ n) && decide (n ≤ c + 34) && (n - (c + 6)) % 4 == 0
  | none => false

/-- A data bit joins the byte being read: the bits come least significant first (R17). -/
def shiftIn (byte : Byte) (b : Bool) : Byte := (byte >>> (1 : Nat)) ||| (if b then 0x80 else 0)

/-- What sample number `n` at level `b` does to the poll in flight (R17, R18). -/
def Poll.sampled (p : Poll) (n : Nat) (b : Bool) : Poll :=
  { p with windowFresh := p.windowFresh && b, byte := if p.readsBit n then shiftIn p.byte b else p.byte }

/-- One quarter-bit tick: the line is sampled at level `b` (R17, R18). -/
def LineController.tick (l : LineController) (b : Bool) : LineController :=
  { l with
    clock := l.clock + 1
    idleRun := if b then l.idleRun + 1 else 0
    candidate := l.candidateAfter b
    poll := l.poll.map fun p => p.sampled l.clock b }

/-- The candidate start bit that is confirmed: the sample two ticks after its first low one was low too (R18). -/
def LineController.confirmed (l : LineController) : Option Nat :=
  match l.candidate with
  | some c => if c + 3 ≤ l.clock then some c else none
  | none => none

/-- What LC's own measures can bring about in an exchange. -/
inductive LineEvent where
  /-- The idle run lets the poll be sent (R20). -/
  | send
  /-- The wait for an idle line is over (R20). -/
  | busy
  /-- The last stop bit of the poll has ended (R21). -/
  | sent
  /-- A start bit with this first low sample is confirmed (R18, R24). -/
  | startBit (first : Nat)
  /-- The reply window closes (R24). -/
  | windowCloses
  /-- The stop bit of a byte has been sampled (R17). -/
  | stopBit
  /-- The idle run ends the reply (R27). -/
  | idle
  /-- The reception limit is reached (R27). -/
  | limit
  deriving DecidableEq, Repr

/-- The event that an open reply window has come to: a confirmed start bit, or its close once its 401 samples are taken and no
candidate is pending (R24). -/
def LineController.windowEvent (l : LineController) (p : Poll) : Option LineEvent :=
  match l.confirmed with
  | some c => some (.startBit c)
  | none => if l.candidate.isNone && decide (p.pollEnd + windowTicks < l.clock) then some .windowCloses else none

/-- The event that a reception has come to. On the tick of the limit a stop bit, a start bit and the idle run come first (R17, R27,
log entry 11). -/
def LineController.receptionEvent (l : LineController) (p : Poll) : Option LineEvent :=
  let limit := if p.pollEnd + receptionTicks < l.clock then some LineEvent.limit else none
  match p.byteStart with
  | some c => if c + stopTick < l.clock then some .stopBit else limit
  | none =>
    match l.confirmed with
    | some c => some (.startBit c)
    | none => if idleToEnd ≤ l.idleRun then some .idle else limit

/-- The event of the exchange that the samples so far have brought about and that has not yet had its effect. -/
def LineController.event (l : LineController) : Option LineEvent :=
  match l.poll with
  | none => none
  | some p =>
    match p.phase with
    | .waitIdle =>
      if idleToSend ≤ l.idleRun ∧ l.clock ≤ p.slotStart + busyLimit then some .send
      else if p.slotStart + busyLimit ≤ l.clock then some .busy
      else none
    | .sending => if p.sentAt + pollTicks ≤ l.clock then some .sent else none
    | .listening => l.windowEvent p
    | .receiving => l.receptionEvent p

/-- The samples of the line pass, one a tick. None where an event falls due before the last of them is taken: that event's command
comes first. -/
def LineController.pass (l : LineController) : Samples → Option LineController
  | [] => some l
  | b :: rest => if l.event.isSome then none else (l.tick b).pass rest

/-! ## Delivering an outcome -/

/-- LC delivers the outcome of the poll in flight to SM; the poll ends and LC is IDLE (R31). -/
def State.deliver (s : State) (p : Poll) (o : ReplyOutcome) : State :=
  State.takeOutcome { s with lc := { s.lc with poll := none } } p.station p.kind (p.latency.getD 0) o

/-- Store a new state of LC. -/
def State.putLine (s : State) (l : LineController) : State := { s with lc := l }

/-! ## The events of an exchange -/

/-- POLL_SEND: the poll goes out with the station's sequence field, which moves on (R20, R21). -/
def State.sendPoll (s : State) (p : Poll) : State :=
  let q := s.sm.nodes[p.station].sequence
  let sent := { p with phase := .sending, sequenceSent := some q, sentAt := s.lc.clock }
  State.setNode (s.putLine { s.lc with poll := some sent }) p.station fun n => { n with sequence := q + 1 }

/-- The four bytes of a poll that has been sent (R21). -/
def Poll.frame (p : Poll) : List Byte := pollFrame p.station p.kind (p.sequenceSent.getD 0)

/-- The level that LC drives onto the line at the present tick: the bits of the poll frame, four ticks each, while it is SENDING;
none where LC leaves the line alone (R17, R19, R21). -/
def LineController.drive (l : LineController) : Option Bool :=
  match l.poll with
  | some p => if p.phase = .sending then (p.frame.flatMap byteLevels)[(l.clock - p.sentAt) / 4]? else none
  | none => none

/-- POLL_END: the buffer is emptied and the reply window opens (R24). -/
def State.endPoll (s : State) (p : Poll) : State :=
  let listening := { p with phase := .listening, pollEnd := s.lc.clock, windowFresh := true, byteStart := none, latency := none }
  s.putLine { s.lc with candidate := none, buffer := [], poll := some listening }

/-- REPLY_START_BIT, for the start bit whose first low sample is `c`: it gives the latency and opens RECEIVING, or begins the next
byte, or ends a reception whose buffer is full (R24, R27). -/
def State.takeStartBit (s : State) (p : Poll) (c : Nat) : State :=
  let l := { s.lc with candidate := none }
  let reading := { p with phase := .receiving, byteStart := some c, byte := 0, windowFresh := false }
  match p.phase with
  | .listening => s.putLine { l with poll := some { reading with latency := some (c - p.pollEnd) } }
  | _ =>
    if l.buffer.length = bufferSize then State.deliver (s.putLine l) p .length
    else s.putLine { l with poll := some reading }

/-- The level of the sample just taken. -/
def LineController.lastLevel (l : LineController) : Bool := decide (0 < l.idleRun)

/-- The byte marks the reply as badly framed: its stop bit is 0, or it is byte 0 and other than SYNC (R25). -/
def LineController.badlyFramed (l : LineController) (b : Byte) : Bool := !l.lastLevel || (l.buffer.isEmpty && b != sync)

/-- Storing this byte brings the buffer to its expected length (R26). -/
def LineController.completes (l : LineController) (b : Byte) : Bool :=
  expectedLength (l.buffer ++ [b]) == some (l.buffer.length + 1)

/-- REPLY_BYTE_READ and REPLY_RECEIVED, once the stop bit of the byte is sampled: the byte ends the reception as FRAMING, is stored,
or, as the last one, is stored and the frame is checked (R25, R26, R31). A badly framed byte is not stored: the reply is over and
nothing reads the buffer before the next window empties it (log entry 36). -/
def State.readByte (s : State) (p : Poll) : State :=
  if s.lc.badlyFramed p.byte then State.deliver s p .framing
  else
    let q := { p with byteStart := none }
    let t := s.putLine { s.lc with buffer := s.lc.buffer ++ [p.byte], poll := some q }
    if s.lc.completes p.byte then t.deliver q (frameOutcome q t.lc.buffer) else t

end Sys2Proof.Machine
end

