-- ==== Sys2Proof/Machine/Schedule.lean ====
section
/-! DEFINITION. Time Base and Poll Scheduler: Cabin Time, the slot clock, the slot visit and the sweep, and the parts of a STEP (R35 to R48). -/

namespace Sys2Proof.Machine

/-! ## Time Base -/

/-- The millisecond about to pass is a slot start (R36). -/
def TimeBase.slotStartNext (tb : TimeBase) : Bool := decide (tb.slotTimer ≤ 1)

/-- Cabin Time advances by one and the slot timer moves with it, reloaded with `period` at a slot start (R35, R36). The ticks
that the new value raises join those that wait (R38). -/
def TimeBase.advance (tb : TimeBase) (period : Nat) : TimeBase :=
  let now := tb.time + 1
  { tb with
    time := now
    slotTimer := if tb.slotStartNext then period else tb.slotTimer - 1
    ticks10 := if now.toNat % 10 = 0 then tb.ticks10 ++ [now] else tb.ticks10
    ticks100 := if now.toNat % 100 = 0 then tb.ticks100 ++ [now] else tb.ticks100 }

/-- A millisecond in CONFIG or RUN: a slot start is raised to PS (R35, R36). -/
def State.passMillisecond (s : State) : State :=
  let raised := if s.tb.slotStartNext then 1 else 0
  { s with tb := { s.tb.advance s.tables.globals.slotPeriod with slotStarts := s.tb.slotStarts + raised } }

/-- `n` milliseconds of a step pass. TB holds the slot start and the ticks that they meet (R39). -/
def TimeBase.advanceBy (tb : TimeBase) (period : Nat) : Nat → TimeBase
  | 0 => tb
  | n + 1 => (tb.advance period).advanceBy period n

/-! ## Poll Scheduler -/

/-- PS requests a poll from LC, which takes it into flight; it belongs to the slot start at hand (R20, R45). -/
def State.requestPoll (s : State) (st : Station) (kind : PollKind) : State :=
  { s with lc := { s.lc with poll := some { station := st, kind, slotStart := s.lc.clock } } }

/-- The visit of a station entry (R41). -/
def State.visitStation (s : State) (st : Station) : State :=
  let n := s.sm.nodes[st]
  if n.state = .active then (s.setNode st fun n => { n with probe := 0 }).requestPoll st .sample
  else if s.tables.globals.probeDivider ≤ n.probe + 1 then
    (s.setNode st fun n => { n with probe := 0 }).requestPoll st .identify
  else s.setNode st fun n => { n with probe := n.probe + 1 }

/-- An open slot serves the head of the On-Demand Queue, or is idle (R42). -/
def State.openSlot (s : State) : State :=
  match s.ps.onDemand with
  | [] => s
  | st :: rest => State.requestPoll { s with ps := { s.ps with onDemand := rest } } st .identify

/-- The slot index after a visit: the next one, modulo the schedule length (R40). -/
def State.nextSlotIndex (s : State) : Fin 64 := Fin.ofNat 64 ((s.ps.slotIndex.val + 1) % s.tables.globals.scheduleLength)

/-- A slot visit of the schedule walk (R40). -/
def State.slotVisit (s : State) : State :=
  let t := { s with ps := { s.ps with slotIndex := s.nextSlotIndex } }
  match s.tables.schedule[s.ps.slotIndex] with
  | some st => t.visitStation st
  | none => t.openSlot

/-- A slot of the discovery sweep (R44). -/
def State.sweepSlot (s : State) : State :=
  State.requestPoll { s with ps := { s.ps with sweep := s.ps.sweep + 1 } } s.ps.sweep .identify

/-- What PS does with a slot start, by the mode. A slot start that reaches PS in HOLD outside a STEP has no decision (R40, R44,
log entry 12). -/
def State.decideSlot (s : State) : State :=
  match s.mode with
  | .config => s.sweepSlot
  | .run => s.slotVisit
  | .hold => s

/-- An entry to CONFIG that waits goes on waiting: it is not due while a new poll is in flight (R169). -/
def Change.postponed : Change → Change
  | .configWaiting _ => .configWaiting false
  | .none => .none
  | .holdSettling => .holdSettling
  | .resetSettling => .resetSettling

/-- A poll that a slot start has put into flight postpones an entry to CONFIG (R169). -/
def State.postponeEntry (s : State) : State := if s.lineIdle then s else { s with change := s.change.postponed }

/-- PS takes a slot start that TB has raised (R36). -/
def State.takeSlotStart (s : State) : State :=
  (State.decideSlot { s with tb := { s.tb with slotStarts := s.tb.slotStarts - 1 } }).postponeEntry

/-! ## The parts of a STEP -/

/-- Change the STEP that is being carried out. -/
def State.mapStep (s : State) (f : StepRun → StepRun) : State :=
  match s.mu.service with
  | some { req, work := .stepping run } => { s with mu := { s.mu with service := some { req, work := .stepping (f run) } } }
  | _ => s

/-- The step in progress has met its poll's outcome and its evaluations are done (R39, R65). -/
def State.stepSettled (s : State) : Bool :=
  s.lineIdle && s.weIdle && s.ss.evalQueue.isEmpty && match s.stepRun with
    | some run => run.inStep
    | none => false

/-- The deadline test of the step in progress is still to be made (R116). -/
def State.deadlinesUntested (s : State) : Bool :=
  match s.stepRun with
  | some run => !run.deadlinesTested
  | none => false

/-- The deadline test of every position, once in a step (R116). -/
def State.testDeadlines (s : State) : State :=
  if s.deadlinesUntested then
    (forEach allPos (fun p t => t.deadlineTest p) s).mapStep fun run => { run with deadlinesTested := true }
  else s

/-- A step begins: Cabin Time advances by one slot period, and PS makes the slot visit of the slot start it met (R39). -/
def State.beginStep (s : State) : State :=
  let p := s.tables.globals.slotPeriod
  let t := s.mapStep fun run => { run with remaining := run.remaining - 1, inStep := true, deadlinesTested := false }
  State.slotVisit { t with tb := s.tb.advanceBy p p }

/-- TB hands OU every 10 ms tick that it holds (R39). -/
def State.handTicks10 (s : State) : State :=
  s.tb.ticks10.foldl State.outputTick { s with tb := { s.tb with ticks10 := [] } }

/-- TB hands RU every 100 ms tick that it holds, and each tick's moves are taken (R39, R112, R113). -/
def State.handTicks100 (s : State) : State :=
  s.tb.ticks100.foldl (fun t v => (t.reminderTick v).takeDueMoves) { s with tb := { s.tb with ticks100 := [] } }

/-- A step ends: the deadline test, then the ticks that the advance met (R39, R116). -/
def State.endStep (s : State) : State :=
  let t := s.testDeadlines.takeDueMoves
  (t.handTicks10.handTicks100).mapStep fun run => { run with inStep := false }

end Sys2Proof.Machine
end

