-- ==== Sys2Proof/Machine/Modes.lean ====
section
/-! DEFINITION. Mode Control: the validation at entry to RUN and what every block does at each entry and at RESET_RUNTIME (R167 to R174). -/

namespace Sys2Proof.Machine

/-! ## Validation at entry to RUN -/

/-- The detail of a failed check: table id, entry, word (R170). -/
structure Flaw where
  table : Byte
  entry : Byte
  word : Byte
  deriving DecidableEq, Repr

/-- The fitted positions, ascending (R1). -/
def Tables.fittedPositions (t : Tables) : List Pos := allPos.filter fun p => t.positions[p].station.isSome

/-- The station appears among the first schedule-length entries of the Poll Schedule Table (R170, check 3). -/
def Tables.scheduled (t : Tables) (st : Option Station) : Bool :=
  (t.schedule.toList.take t.globals.scheduleLength).contains st

/-- A flaw of a Position Table entry's station word. -/
def positionFlaw (p : Pos) : Flaw := { table := 1, entry := byteOf p.val, word := 0 }

/-- Checks 5 to 7, or 8 to 10, of a bank, made when it is in force for a fitted position (R170). -/
def Tables.bankFlaw (t : Tables) (name : BankName) (table : Byte) : Option Flaw :=
  let b := t.bank name
  if t.fittedPositions.any fun p => t.bankName p == name then
    if b.tAdult ≤ b.tObj then some { table, entry := 0, word := 5 }
    else if b.w < b.h then some { table, entry := 0, word := 1 }
    else if t.globals.chainCap < b.w then some { table, entry := 0, word := 0 }
    else none
  else none

/-- The first check that fails at an entry to RUN (R170). -/
def Tables.flaw (t : Tables) : Option Flaw :=
  if t.fittedPositions = [] then some { table := 1, entry := 0xFF, word := 0 }
  else if t.globals.scheduleLength < 1 ∨ 64 < t.globals.scheduleLength then some { table := 7, entry := 0, word := 10 }
  else
    match t.fittedPositions.find? fun p => !t.scheduled t.positions[p].station with
    | some p => some (positionFlaw p)
    | none =>
      match t.airbagPositions.find? fun p => t.positions[p].station.isNone with
      | some p => some (positionFlaw p)
      | none =>
        match t.bankFlaw .a 3 with
        | some f => some f
        | none => t.bankFlaw .b 4

/-! ## The entries -/

/-- Entry to HOLD: the lamps are held, the mode changes, and Cabin Time stands. A slot start or tick that its block has not yet
taken is not taken any more (R168, R131, R39, log entry 12). -/
def State.enterHold (s : State) : State :=
  let t := s.holdLamps.enterMode .hold
  { t with tb := { t.tb with slotStarts := 0, ticks10 := [], ticks100 := [] } }

/-- Every buckle is put back to UNKNOWN (R106, R120). -/
def State.resetBuckles (s : State) : State := forEach allPos (fun p t => t.resetBuckle p) s

/-- Entry to CONFIG: every block takes its part (R169). -/
def State.enterConfig (s : State) : State :=
  let t := s.enterMode .config
  let t := { t with
    ps := { t.ps with onDemand := [], sweep := 0 }
    sm := { t.sm with routing := emptyRouting } }
  t.allInactive.resetBuckles.flushAll

/-- Entry to RUN: every block takes its part (R171). -/
def State.enterRun (s : State) : State :=
  let t := s.enterMode .run
  let t := t.flushAll.clearLosses.stationsEnterRun
  { t with
    tb := { t.tb with slotTimer := min t.tb.slotTimer t.tables.globals.slotPeriod }
    ps := { t.ps with slotIndex := 0 }
    ou := t.ou.clearEnables }

/-! ## RESET_RUNTIME -/

/-- CL's record of a position after a reset (R84). SAMPLE_LOSS is clear in it at once, also where SS takes its reset state only at
the completion of an evaluation in flight, which clears the flag again (log entry 39). -/
def State.freshRecord (s : State) (p : Pos) : ClassRecord :=
  let c := s.blankClass p
  { committed := c, supp := c.suppression }

/-- VP's part of a RESET_RUNTIME: the queue is emptied, the EVENT slot too unless its frame is on the wire, and the rolling
counter is 0 (R143 to R145, R149). -/
def VehiclePort.resetRuntime (vp : VehiclePort) : VehiclePort :=
  let onWire : Bool := match vp.wire with
    | some a => a.payload == .event
    | none => false
  { vp with
    rolling := 0
    eventQueue := []
    eventSlot := if onWire then vp.eventSlot else none
    wire := vp.wire.map fun a => { a with resetSince := true } }

/-- The reset contents are handed to VP: every class by the fitting, every buckle UNKNOWN, every flag clear (R84, R103, R149). -/
def State.handResetContents (s : State) : State :=
  { s with vp := { s.vp with
    cls := s.vp.cls.hand (Vector.ofFn fun p => s.cl[p].committed) s.statusPeriod statusGap
    belt := s.vp.belt.hand (Vector.replicate 16 {}) s.statusPeriod statusGap
    quality := s.vp.quality.hand (Vector.replicate 16 {}) s.statusPeriod statusGap } }

/-- What a RESET_RUNTIME resets at once; SS follows when no evaluation is in flight (R172, R16, R46, R84, R103, R123). R123's table
gives OU's copy of position A's suppression state as none, and R96 has CL hand it over at each reset: the hand-over comes last, so
that OU ends with the state that R84 gives position A (DESIGN CHOICE, log entry 41). R105 and R106 say that the resets of R103 write
no capture, and R103, R120 and R172 put every field of RU at its reset value: the captures are cleared with the rest (DESIGN CHOICE,
log entry 42). -/
def State.resetRuntime (s : State) : State :=
  let t := { s with
    ps := {}
    sm := {}
    cl := Vector.ofFn fun p => s.freshRecord p
    ru := { ignitionTime := s.tb.time }
    ou := { overrides := s.ou.clearEnables.overrides }
    vp := s.vp.resetRuntime }
  t.handResetContents.giveSuppression.enterMode .config

end Sys2Proof.Machine
end

