-- ==== Sys2Proof/Machine/Management.lean ====
section
/-! DEFINITION. The Management Unit: accepting a request, its checks in order, what it does, and the response (R150 to R166). -/

namespace Sys2Proof.Machine

/-! ## Accepting -/

/-- The record of a frame of which MU reads no more than byte 0, which is 0 where the frame has none (R150). -/
def malformedRecord (level : Level) (data : List Byte) : RequestRecord :=
  { level, echo := byteAt data 0, kind := kindNibble data, tag := (byteAt data 0).setWidth 4, id := 0, entry := 0, word := 0, value := 0, mask := 0 }

/-- The record of a whole request frame, its value and its mask low byte first (R150, R175). -/
def requestRecord (level : Level) (data : List Byte) : RequestRecord :=
  { malformedRecord level data with
    id := byteAt data 1, entry := byteAt data 2, word := byteAt data 3, value := wordAt data 4, mask := wordAt data 6 }

/-- A refusal, with detail byte 5 where a rule names one. -/
def refusal (status : Status) (detail5 : Byte := 0) (detail6 : Byte := 0) (detail7 : Byte := 0) : Work :=
  .result { status, detail5, detail6, detail7 }

/-- An OK answer. -/
def okay (data : Word) (detail5 : Byte := 0) : Work := .result { status := .ok, data, detail5 }

/-- The request in service ends with a result (R151). -/
def State.finish (s : State) (w : Work) : State :=
  { s with mu := { s.mu with service := s.mu.service.map fun v => { v with work := w } } }

/-! ## Reading and writing -/

/-- READ_WORD (R154, R155, R159). -/
def State.serveRead (r : RequestRecord) (s : State) : State × Work :=
  match address r.id r.entry r.word with
  | none => (s, refusal .notPresent)
  | some a => if mayTouch r.level a then (s, okay (s.readAt a)) else (s, refusal .notPresent)

/-- A value stored where it belongs: the Output Overrides in OU, every other table in MU (R150, R160). -/
def State.storeWord (s : State) (a : Address) (v : Word) : State :=
  match a with
  | .override e w => { s with ou := { s.ou with overrides := upd s.ou.overrides e fun o => o.store w v } }
  | _ => { s with tables := s.tables.store a v }

/-- What CL makes of a stored Position Table word, `s` being the part before the write: the fitting of a position may have changed,
or which positions are A and B (R97, R98, R160). -/
def State.writeEffects (t s : State) (a : Address) : State :=
  match a with
  | .position p 0 => t.fittingChange p (s.fitted p)
  | .position _ 3 => t.giveSuppression
  | _ => t

/-- A word is stored and its effects follow (R160). -/
def State.writeWord (s : State) (a : Address) (v : Word) : State := (s.storeWord a v).writeEffects s a

/-- WRITE_WORD, its checks in order (R153 to R158, R160). -/
def State.serveWrite (r : RequestRecord) (s : State) : State × Work :=
  match address r.id r.entry r.word with
  | none => (s, refusal .notPresent)
  | some a =>
    if a.isView || !mayTouch r.level a then (s, refusal .notPresent)
    else if !a.writableIn s.mode then (s, refusal .mode)
    else if !inRange a.layout r.value then (s, refusal .range)
    else
      match s.tables.conflict a r.value with
      | some e => (s, refusal .conflict (byteOf e.val))
      | none =>
        let t := s.writeWord a r.value
        (t, okay (t.readAt a))

/-! ## Writing several positions -/

/-- The masked positions, ascending (R161). -/
def maskedPositions (mask : Word) : List Pos := allPos.filter fun p => mask.getLsbD p.val

/-- The first masked position that conflicts, with the entry it conflicts with, against the table as it stands after the writes to
the lower masked positions (R161). -/
def Tables.maskedConflict (t : Tables) (w : Fin 4) (v : Word) : List Pos → Option (Pos × Fin 16)
  | [] => none
  | p :: rest =>
    match t.conflict (.position p w) v with
    | some e => some (p, e)
    | none => (t.store (.position p w) v).maskedConflict w v rest

/-- The value is stored in every masked position together; then each write has its effects (R161). -/
def State.writeAll (s : State) (ps : List Pos) (w : Fin 4) (v : Word) : State :=
  let t := forEach ps (fun p t => t.storeWord (.position p w) v) s
  forEach ps (fun p t => t.writeEffects s (.position p w)) t

/-- WRITE_MASKED (R161). -/
def State.serveMasked (r : RequestRecord) (s : State) : State × Work :=
  let ps := maskedPositions r.mask
  if r.id ≠ 1 then (s, refusal .malformed)
  else
    match index 4 r.word.toNat with
    | none => (s, refusal .notPresent)
    | some w =>
      if w = 3 ∧ r.level = .operational then (s, refusal .notPresent)
      else if s.mode ≠ .config then (s, refusal .mode)
      else if ps = [] then (s, refusal .range)
      else if !inRange (positionLayout w) r.value then (s, refusal .range (byteOf ((ps.headD 0).val)))
      else
        match s.tables.maskedConflict w r.value ps with
        | some (p, e) => (s, refusal .conflict (byteOf p.val) (byteOf e.val))
        | none => (s.writeAll ps w r.value, okay r.value (byteOf ps.length))

/-! ## Commands -/

/-- REIDENTIFY: queued, merged or full (R43, R162). -/
def State.serveReidentify (r : RequestRecord) (s : State) : State × Work :=
  let n := r.entry.toNat
  if s.mode = .config then (s, refusal .mode)
  else
    match stationOf n with
    | none => (s, refusal .range)
    | some st =>
      if 8 < n then (s, refusal .range)
      else if s.ps.onDemand.contains st then (s, okay (wordOf n) 1)
      else if 4 ≤ s.ps.onDemand.length then (s, refusal .queueFull)
      else ({ s with ps := { s.ps with onDemand := s.ps.onDemand ++ [st] } }, okay (wordOf n))

/-- STEP (R163). -/
def State.serveStep (r : RequestRecord) (s : State) : State × Work :=
  let n := r.entry.toNat
  if s.mode ≠ .hold then (s, refusal .mode)
  else if n < 1 ∨ 16 < n then (s, refusal .range)
  else (s, .stepping { count := n, remaining := n })

/-- SET_MODE RUN, once it names another mode: the validation, and the entry (R164, R170, R171). -/
def State.changeToRun (s : State) : State × Work :=
  match s.tables.flaw with
  | some f => (s, refusal .invalidTables f.table f.entry f.word)
  | none => (s.enterRun, okay 1)

/-- SET_MODE HOLD, once it names another mode: answered at once when nothing is in flight (R164, R168). -/
def State.changeToHold (s : State) : State × Work :=
  if s.mode = .config then (s, refusal .mode)
  else if s.nothingInFlight then (s.enterHold, okay 2)
  else ({ s.enterHold with change := .holdSettling }, .changing)

/-- SET_MODE CONFIG, once it names another mode: with nothing in flight, as in HOLD, the entry is made at acceptance (R164, R169). -/
def State.changeToConfig (s : State) : State × Work :=
  if s.moving then (s, refusal .moving)
  else if s.nothingInFlight then (s.enterConfig, okay 0)
  else ({ s with change := .configWaiting false }, .changing)

/-- The mode that a mode byte names (R164). -/
def modeOf (b : Byte) : Option Mode :=
  match b.toNat with
  | 0 => some .config
  | 1 => some .run
  | 2 => some .hold
  | _ => none

/-- SET_MODE, its checks in order (R164). -/
def State.serveSetMode (r : RequestRecord) (s : State) : State × Work :=
  match modeOf r.id with
  | none => (s, refusal .range)
  | some m =>
    if m = .config ∧ r.level = .operational then (s, refusal .notPresent)
    else if m = s.mode then (s, okay (wordOf m.code))
    else
      match m with
      | .run => s.changeToRun
      | .hold => s.changeToHold
      | .config => s.changeToConfig

/-- RESET_RUNTIME (R155, R165, R172). -/
def State.serveReset (r : RequestRecord) (s : State) : State × Work :=
  if r.level = .operational then (s, refusal .notPresent)
  else if s.moving then (s, refusal .moving)
  else if s.weIdle then (s.resetRuntime.resetStore, okay 0)
  else ({ s.resetRuntime with change := .resetSettling }, .changing)

/-! ## Serving -/

/-- What becomes of the part and of an accepted request, by its kind (R150, R159 to R165). -/
def State.serve (s : State) (r : RequestRecord) : State × Work :=
  match r.kind with
  | 1 => s.serveRead r
  | 2 => s.serveWrite r
  | 3 => s.serveMasked r
  | 4 => s.serveSetMode r
  | 5 => s.serveStep r
  | 6 => s.serveReidentify r
  | 7 => s.serveReset r
  | _ => (s, refusal .malformed)

/-- MU has come as far as `work` with the request `r`, in the state `s`. -/
def State.serving (s : State) (r : RequestRecord) (work : Work) : State :=
  { s with mu := { s.mu with service := some { req := r, work } } }

/-- An IDLE MU accepts a frame, and carries out or refuses the request (R150). -/
def State.accept (s : State) (level : Level) (data : List Byte) : State :=
  if malformedData data then s.serving (malformedRecord level data) (refusal .malformed)
  else (s.serve (requestRecord level data)).1.serving (requestRecord level data) (s.serve (requestRecord level data)).2

/-- VP hands MU a frame: a SERVING MU discards it, an IDLE one accepts it (R150, R151). -/
def State.handRequest (s : State) (level : Level) (data : List Byte) : State :=
  match s.mu.service with
  | some _ => { s with mu := { s.mu with overlap := true } }
  | none => s.accept level data

/-! ## The response -/

/-- The status codes (R152). -/
def Status.code : Status → Nat
  | .ok => 0
  | .malformed => 1
  | .notPresent => 2
  | .mode => 3
  | .range => 4
  | .conflict => 5
  | .queueFull => 6
  | .moving => 7
  | .invalidTables => 8

/-- A response frame (R152, R175). -/
def responseFrame (rec : RequestRecord) (r : Result) (overlap : Bool) (m : Mode) : Frame :=
  #v[rec.echo, byteOf r.status.code, byteOf (flag overlap + 2 * m.code),
     r.data.setWidth 8, (r.data >>> (8 : Nat)).setWidth 8, r.detail5, r.detail6, r.detail7]

/-- The result that waits to be handed over, with its request (R151, R152). -/
def ManagementUnit.ready (mu : ManagementUnit) : Option (RequestRecord × Result) :=
  match mu.service with
  | some { req, work := .result r } => some (req, r)
  | _ => none

/-- The response goes to the RESPONSE slot, the overlap flag is cleared, and MU is IDLE (R151, R152). -/
def State.handOver (s : State) (rec : RequestRecord) (r : Result) : State :=
  { s with
    vp := { s.vp with response := some (responseFrame rec r s.mu.overlap s.mode) }
    mu := {} }

end Sys2Proof.Machine
end

