-- ==== Sys2Proof/Machine/EvaluationSteps.lean ====
section
/-! DEFINITION. The steps of the Window Evaluator: EVALUATION_START and EVALUATION_COMPLETION (R57 to R61, R64, R67). -/

namespace Sys2Proof.Machine

/-- EVALUATION_START (R57). WE takes the head at any moment at which the rule's conditions hold; the table gives this a row of its
own, so it waits for this command, and other commands (arrivals, CABIN_TIME_ADVANCE, SET_MODE) go on past an evaluation that could
start (DESIGN CHOICE, log entry 45). -/
def execEvaluationStart (s : State) : Host.Outcome State Fault Refusal :=
  occurs s (s.mayEvaluate && !s.ss.evalQueue.isEmpty) s.startEvaluation

/-- The completion that a RESET_RUNTIME waits for: a discarded one, at which SS takes its reset state and MU answers OK (R64,
R172). -/
def State.settleReset (s : State) : State :=
  (State.resetStore { s with we := none, change := .none }).finish (okay 0)

/-- An entry to CONFIG that waits, and finds nothing in flight at this completion, is due (R167, R169, log entry 26). -/
def State.callEntry (s : State) : State :=
  match s.change with
  | .configWaiting _ => { s with change := .configWaiting s.lineIdle }
  | .none | .holdSettling | .resetSettling => s

/-- EVALUATION_COMPLETION (R59 to R61, R64). -/
def execEvaluationCompletion (s : State) : Host.Outcome State Fault Refusal :=
  match s.we with
  | none => .next s
  | some e => occurs s true (if s.change = .resetSettling then s.settleReset else (s.completeEvaluation e).callEntry)

end Sys2Proof.Machine
end

