-- ==== Sys2Proof/Machine/LineSteps.lean ====
section
/-! DEFINITION. The steps of the Seat Line: the exchange of a poll and its reply, and the samples of the line (R17 to R34). -/

namespace Sys2Proof.Machine

/-- The samples of the line pass and bring about an event of the exchange. Where the command's row names that event, `f` gives its
effect on the part as the samples leave it. -/
def onLine (s : State) (line : Samples) (f : State → Poll → LineEvent → Option State) : Host.Outcome State Fault Refusal :=
  match s.lc.pass line with
  | none => .next s
  | some l =>
    match l.poll, l.event with
    | some p, some e =>
      match f (s.putLine l) p e with
      | some t => occurs s true t
      | none => .next s
    | _, _ => .next s

/-- POLL_SEND (R20, R21). -/
def execPollSend (s : State) (line : Samples := []) : Host.Outcome State Fault Refusal :=
  onLine s line fun t p e => if e = .send then some (t.sendPoll p) else none

/-- LINE_BUSY (R20). -/
def execLineBusy (s : State) (line : Samples := []) : Host.Outcome State Fault Refusal :=
  onLine s line fun t p e => if e = .busy then some (t.deliver p .lineBusy) else none

/-- POLL_END (R21, R24). -/
def execPollEnd (s : State) (line : Samples := []) : Host.Outcome State Fault Refusal :=
  onLine s line fun t p e => if e = .sent then some (t.endPoll p) else none

/-- NO_REPLY (R24). -/
def execNoReply (s : State) (line : Samples := []) : Host.Outcome State Fault Refusal :=
  onLine s line fun t p e => if e = .windowCloses then some (t.deliver p .noReply) else none

/-- The samples that a command of a byte brings: those before its stop bit, and the stop bit. Where LC has sampled the stop bit under
another row already, a LINE_LOW_SAMPLE, the command names that sample alone and brings no further one (R17, R25, log entry 44). -/
def LineController.toStopBit (l : LineController) (line : Samples) (stop : Bool) : Samples :=
  if l.event = some .stopBit ∧ line = [] ∧ stop = l.lastLevel then [] else line ++ [stop]

/-- REPLY_RECEIVED: the byte brings the reply to its expected length, or is badly framed (R25, R26). -/
def execReplyReceived (line : Samples) (stop : Bool) (s : State) : Host.Outcome State Fault Refusal :=
  onLine s (s.lc.toStopBit line stop) fun t p e =>
    if e = .stopBit ∧ (t.lc.badlyFramed p.byte || t.lc.completes p.byte) then some (t.readByte p) else none

/-- REPLY_BYTE_READ: the byte does not complete the reply (R25, R26). -/
def execReplyByteRead (line : Samples) (stop : Bool) (s : State) : Host.Outcome State Fault Refusal :=
  onLine s (s.lc.toStopBit line stop) fun t p e =>
    if e = .stopBit ∧ (t.lc.badlyFramed p.byte || !t.lc.completes p.byte) then some (t.readByte p) else none

/-- END_OF_FRAME_IDLE (R27). -/
def execEndOfFrameIdle (s : State) (line : Samples := []) : Host.Outcome State Fault Refusal :=
  onLine s line fun t p e => if e = .idle then some (t.deliver p (endedOutcome p t.lc.buffer)) else none

/-- RECEPTION_LIMIT: a byte whose stop bit has not been read is dropped (R27). -/
def execReceptionLimit (s : State) (line : Samples := []) : Host.Outcome State Fault Refusal :=
  onLine s line fun t p e => if e = .limit then some (t.deliver p (endedOutcome p t.lc.buffer)) else none

/-- REPLY_START_BIT (R18, R24, R27). -/
def execReplyStartBit (line : Samples) (s : State) : Host.Outcome State Fault Refusal :=
  onLine s line fun t p e =>
    match e with
    | .startBit c => some (t.takeStartBit p c)
    | _ => none

/-- LINE_LOW_SAMPLE (R18, R33). A low sample that is the stop bit of a byte leaves the FRAMING of R25 to the byte's own row, which
spec/95 lists it under (log entry 44). -/
def execLineLowSample (line : Samples) (s : State) : Host.Outcome State Fault Refusal :=
  match s.lc.pass line with
  | some l => occurs s (line.getLast? == some false) (s.putLine l)
  | none => .next s

end Sys2Proof.Machine
end

