-- ==== Sys2Proof/Machine/Reception.lean ====
section
/-! DEFINITION. A received CAN frame: the request identifiers, the vehicle inputs, and the three tests that a frame may pass (R136 to
R139, R150, R151). -/

namespace Sys2Proof.Machine

/-- Store a new state of VP. -/
def State.putPort (s : State) (vp : VehiclePort) : State := { s with vp }

/-! ## Requests -/

/-- The level of the request that a frame is: base + 0 is operational, base + 1 service; none for any other identifier, and none in
BUS_OFF (R136, R137, R148). -/
def VehiclePort.requestLevel (vp : VehiclePort) (f : CanFrame) : Option Level :=
  if vp.busOff then none
  else if f.ident = vp.base then some .operational
  else if f.ident = vp.base + 1 then some .service
  else none

/-- A frame on a request identifier goes to MU (R137, R150, R151). -/
def State.takeRequest (s : State) (f : CanFrame) : State :=
  match s.vp.requestLevel f with
  | some level => s.handRequest level f.data
  | none => s

/-! ## Vehicle inputs -/

/-- The byte that a frame brings an input: none in BUS_OFF, for another identifier, or with too few bytes (R137, R138). -/
def VehiclePort.inputByte (vp : VehiclePort) (i : VehicleInput) (f : CanFrame) : Option Byte :=
  if !vp.busOff && f.ident == i.ident then f.data[i.byteIndex.val]? else none

/-- The speed change of a speed that has gone stale reaches RU (R107, R139). -/
def State.handStale (s : State) : State := (s.putPort { s.vp with staleDue := false }).speedChange

/-- The speed input takes a value; a changed reading is a speed change. A speed change of an earlier tick comes first (R107, R138,
R139). -/
def State.takeSpeed (s : State) (b : Byte) : State :=
  let t := if s.vp.staleDue then s.handStale else s
  let u := t.putPort { t.vp with speed := b, staleness := 0 }
  if s.speedReading = b then u else u.speedChange

/-- The power mode that the low two bits of a byte name (R138). -/
def powerModeOf (b : Byte) : PowerMode :=
  match b.toNat % 4 with
  | 0 => .off
  | 1 => .accessory
  | 2 => .run
  | _ => .crank

/-- The power-mode input takes a value; a change of ignition is handed to RU (R107, R138). -/
def State.takePowerMode (s : State) (m : PowerMode) : State :=
  let t := s.putPort { s.vp with powerMode := m }
  if s.ignitionOn = m.ignition then t else if m.ignition then t.ignitionComesOn else t.ignitionGoesOff

/-- What the vehicle inputs make of the bytes that a frame brought them. -/
def State.takeInputs (s : State) (speed power : Option Byte) : State :=
  let t := match speed with
    | some b => s.takeSpeed b
    | none => s
  match power with
  | some b => t.takePowerMode (powerModeOf b)
  | none => t

/-! ## A frame -/

/-- The inputs of `s` take what a frame brings them, in the part as `t` holds it by then: a write of a Vehicle Inputs entry applies to
the next frame (R137, R138). -/
def State.thenInputs (s : State) (f : CanFrame) (t : State) : State :=
  t.takeInputs (s.vp.inputByte s.tables.speedInput f) (s.vp.inputByte s.tables.powerInput f)

/-- A received frame acts on each of the three tests that it passes. The rule names no order; the model takes that of its list: the
request, the speed, the power mode (R137, log entry 5). -/
def State.receive (s : State) (f : CanFrame) : State := s.thenInputs f (s.takeRequest f)

/-- A request frame under a row whose test its bytes pass (R137, R150). -/
def onRequest (s : State) (f : CanFrame) (row : Bool) : Host.Outcome State Fault Refusal :=
  occurs s ((s.vp.requestLevel f).isSome && row) (s.receive f)

end Sys2Proof.Machine
end

