-- ==== Sys2Proof/Machine/PortSteps.lean ====
section
/-! DEFINITION. The steps of the Vehicle Port: its tick, due frames, vehicle inputs and the transmitter (R135 to R149). -/

namespace Sys2Proof.Machine

/-! ## The tick and what it makes due -/

/-- VP_MS_TICK (R135, R139, R141, R142, R148). -/
def execVpMsTick (s : State) : Host.Outcome State Fault Refusal :=
  occurs s true (s.putPort (s.vp.tick s.statusPeriod))

/-- SPEED_STALE (R139). -/
def execSpeedStale (s : State) : Host.Outcome State Fault Refusal :=
  occurs s s.vp.staleDue s.handStale

/-- The slot of a status kind is to become pending (R141). -/
def VehiclePort.statusDue (vp : VehiclePort) : StatusKind → Bool
  | .cls => vp.cls.due
  | .belt => vp.belt.due
  | .quality => vp.quality.due

/-- The slot of a status kind becomes pending (R141). -/
def VehiclePort.makeStatusPending (vp : VehiclePort) : StatusKind → VehiclePort
  | .cls => { vp with cls := vp.cls.makePending }
  | .belt => { vp with belt := vp.belt.makePending }
  | .quality => { vp with quality := vp.quality.makePending }

/-- STATUS_FRAME_DUE (R141). -/
def execStatusFrameDue (kind : StatusKind) (s : State) : Host.Outcome State Fault Refusal :=
  occurs s (s.vp.statusDue kind) (s.putPort (s.vp.makeStatusPending kind))

/-- SUPPRESSION_FRAME_DUE (R142). -/
def execSuppressionFrameDue (s : State) : Host.Outcome State Fault Refusal :=
  occurs s s.vp.suppression.due (s.putPort { s.vp with suppression := s.vp.suppression.makePending })

/-- BUS_OFF_RECOVERY (R148). -/
def execBusOffRecovery (s : State) : Host.Outcome State Fault Refusal :=
  occurs s (s.vp.busOff && s.vp.busOffCount == 200)
    ((s.putPort { s.vp with busOff := false, failures := 0 }).queueEvent .busOffRecovered 0 0 0)

/-! ## Vehicle inputs -/

/-- SPEED_FRAME (R138, R139). -/
def execSpeedFrame (frame : CanFrame) (s : State) : Host.Outcome State Fault Refusal :=
  occurs s (s.vp.inputByte s.tables.speedInput frame).isSome (s.receive frame)

/-- POWER_MODE_FRAME (R138). -/
def execPowerModeFrame (frame : CanFrame) (s : State) : Host.Outcome State Fault Refusal :=
  occurs s (s.vp.inputByte s.tables.powerInput frame).isSome (s.receive frame)

/-! ## The transmitter -/

/-- TRANSMIT_START: the transmitter is free and a slot is pending (R147). The arbiter takes a slot each time the transmitter is free;
the table gives this a row of its own, so it waits for this command, nothing waits for it, and the slot and its content are those of
the command's moment (DESIGN CHOICE, log entry 46). -/
def execTransmitStart (s : State) : Host.Outcome State Fault Refusal :=
  match s.vp.arbitrate with
  | some a => occurs s (!s.vp.busOff && s.vp.wire.isNone) (s.putPort { s.vp with wire := some a })
  | none => .next s

/-- TRANSMIT_SUCCESS (R147). -/
def execTransmitSuccess (s : State) : Host.Outcome State Fault Refusal :=
  match s.vp.wire with
  | some a => occurs s true (s.putPort (s.vp.succeed a))
  | none => .next s

/-- LOST_ARBITRATION (R147). -/
def execLostArbitration (s : State) : Host.Outcome State Fault Refusal :=
  match s.vp.wire with
  | some a => occurs s true (s.putPort (s.vp.release a))
  | none => .next s

/-- TRANSMIT_FAILURE (R147, R148). -/
def execTransmitFailure (s : State) : Host.Outcome State Fault Refusal :=
  match s.vp.wire with
  | some a => occurs s true (s.putPort (s.vp.fail a))
  | none => .next s

end Sys2Proof.Machine
end

