-- ==== Sys2Proof/Machine/ReminderSteps.lean ====
section
/-! DEFINITION. The Reminder Unit's own moments: PENDING_TRIGGER, STAGE_EXPIRY and GRACE_DEADLINE_REACHED (R112, R113, R116). -/

namespace Sys2Proof.Machine

/-- PENDING_TRIGGER of a position whose trigger test has held (R112). -/
def execPendingTrigger (p : Pos) (s : State) : Host.Outcome State Fault Refusal :=
  occurs s s.ru.records[p].triggered (s.takeTrigger p)

/-- STAGE_EXPIRY of a position whose stage timer a tick takes to 0 (R113). -/
def execStageExpiry (p : Pos) (s : State) : Host.Outcome State Fault Refusal :=
  occurs s s.ru.records[p].expiring (s.takeExpiry p)

/-- The moment of a deadline test: any millisecond in RUN, and in HOLD the one between a step's evaluations and its ticks (R116). -/
def State.deadlineMoment (s : State) : Bool :=
  match s.mode with
  | .run => true
  | .hold => s.stepSettled && s.deadlinesUntested
  | .config => false

/-- GRACE_DEADLINE_REACHED of a position in PENDING (R116). In RUN the rule tests at each millisecond that Cabin Time advances; the
table gives the move a row of its own, so it waits for this command, nothing waits for it, and it is made at the Cabin Time of the
command (DESIGN CHOICE, log entry 43). -/
def execGraceDeadlineReached (p : Pos) (s : State) : Host.Outcome State Fault Refusal :=
  occurs s (s.deadlineMoment && s.ru.records[p].deadlineReached s.tb.time) (s.moveToStage2 p)

end Sys2Proof.Machine
end

