-- ==== Sys2Proof/Machine/RequestSteps.lean ====
section
/-! DEFINITION. The management commands: one meaning for each request row, for a frame that is malformed or discarded, for the end of a mode change and for the hand-over of the response (R150 to R174). -/

namespace Sys2Proof.Machine

/-- REQUEST_DISCARDED: the frame reaches a SERVING MU (R151). -/
def execRequestDiscarded (ident : BitVec 11) (data : List Byte) (s : State) : Host.Outcome State Fault Refusal :=
  onRequest s { ident, data } s.mu.service.isSome

/-- MALFORMED_REQUEST (R150, R153). -/
def execMalformedRequest (ident : BitVec 11) (data : List Byte) (s : State) : Host.Outcome State Fault Refusal :=
  onRequest s { ident, data } (malformedData data)

/-- READ_WORD (R159). -/
def execReadWord (ident : BitVec 11) (data : List Byte) (s : State) : Host.Outcome State Fault Refusal :=
  onRequest s { ident, data } (isKind data 1)

/-- WRITE_WORD (R160). -/
def execWriteWord (ident : BitVec 11) (data : List Byte) (s : State) : Host.Outcome State Fault Refusal :=
  onRequest s { ident, data } (isKind data 2 && !hasOwnRow data)

/-- WRITE_POSITION_STATION: the write of Position Table word 0 (R98, R158, R160). -/
def execWritePositionStation (ident : BitVec 11) (data : List Byte) (s : State) : Host.Outcome State Fault Refusal :=
  onRequest s { ident, data } (writesItem data 1 0)

/-- WRITE_AIRBAG_RELEVANT: the write of Position Table word 3 (R97, R155, R158, R160). -/
def execWriteAirbagRelevant (ident : BitVec 11) (data : List Byte) (s : State) : Host.Outcome State Fault Refusal :=
  onRequest s { ident, data } (writesItem data 1 3)

/-- WRITE_OVERRIDE_ENABLE: the write of Output Overrides word 0 (R133, R156, R160). -/
def execWriteOverrideEnable (ident : BitVec 11) (data : List Byte) (s : State) : Host.Outcome State Fault Refusal :=
  onRequest s { ident, data } (writesItem data 9 0)

/-- WRITE_OVERRIDE_LATCHED: the write of Output Overrides word 1 (R133, R156, R160). -/
def execWriteOverrideLatched (ident : BitVec 11) (data : List Byte) (s : State) : Host.Outcome State Fault Refusal :=
  onRequest s { ident, data } (writesItem data 9 1)

/-- WRITE_MASKED (R161). -/
def execWriteMasked (ident : BitVec 11) (data : List Byte) (s : State) : Host.Outcome State Fault Refusal :=
  onRequest s { ident, data } (isKind data 3)

/-- SET_MODE_RUN (R164, R170, R171). -/
def execSetModeRun (ident : BitVec 11) (data : List Byte) (s : State) : Host.Outcome State Fault Refusal :=
  onRequest s { ident, data } (setsMode data 1)

/-- SET_MODE_HOLD (R164, R168). -/
def execSetModeHold (ident : BitVec 11) (data : List Byte) (s : State) : Host.Outcome State Fault Refusal :=
  onRequest s { ident, data } (setsMode data 2)

/-- SET_MODE_CONFIG (R164, R169). -/
def execSetModeConfig (ident : BitVec 11) (data : List Byte) (s : State) : Host.Outcome State Fault Refusal :=
  onRequest s { ident, data } (setsMode data 0)

/-- HOLD_SETTLED (R168). The change ends at this command, and other commands go on past the first moment with nothing in flight (DESIGN
CHOICE, log entry 47). -/
def execHoldSettled (s : State) : Host.Outcome State Fault Refusal :=
  occurs s (s.change == .holdSettling && s.nothingInFlight) (State.finish { s with change := .none } (okay 2))

/-- A full window waits that WE, at this moment, takes before the entry to CONFIG can come (R57, R169, log entry 26). -/
def State.evaluationWaits (s : State) : Bool := s.mayEvaluate && s.ss.evalQueue.any s.windowFull

/-- The entry to CONFIG that a change waits for can be made: nothing is in flight, and no evaluation starts first (R169). -/
def State.entryComes (s : State) : Bool :=
  match s.change with
  | .configWaiting _ => s.nothingInFlight && !s.evaluationWaits
  | .none | .holdSettling | .resetSettling => false

/-- CONFIG_ENTRY (R169). The entry waits for this command, and other commands go on past the first moment with nothing in flight (DESIGN
CHOICE, log entry 47). -/
def execConfigEntry (s : State) : Host.Outcome State Fault Refusal :=
  occurs s s.entryComes (State.finish { s.enterConfig with change := .none } (okay 0))

/-- STEP (R163). -/
def execStep (ident : BitVec 11) (data : List Byte) (s : State) : Host.Outcome State Fault Refusal :=
  onRequest s { ident, data } (isKind data 5)

/-- REIDENTIFY (R43, R162). -/
def execReidentify (ident : BitVec 11) (data : List Byte) (s : State) : Host.Outcome State Fault Refusal :=
  onRequest s { ident, data } (isKind data 6)

/-- RESET_RUNTIME (R165, R172). -/
def execResetRuntime (ident : BitVec 11) (data : List Byte) (s : State) : Host.Outcome State Fault Refusal :=
  onRequest s { ident, data } (isKind data 7)

/-- RESPONSE_HANDOVER: the result is ready and the RESPONSE slot is empty (R146, R151, R152). It comes apart from the command that
makes the result, also where the slot is empty by then, so that a request between the two is discarded (log entry 38). -/
def execResponseHandover (s : State) : Host.Outcome State Fault Refusal :=
  match s.mu.ready with
  | some (rec, r) => occurs s s.vp.response.isNone (s.handOver rec r)
  | none => .next s

end Sys2Proof.Machine
end

