-- ==== Sys2Proof/Machine/Resets.lean ====
section
/-! DEFINITION. Power and RESET_N: POWER_ON_RESET, RESET_N_LOW, RESET_N_RELEASE and POWER_LOSS (R136, R166, R173). -/

namespace Sys2Proof.Machine

/-- Every block at its reset value, with the identifier base and the power given (R173). The captures are cleared with the rest (R103,
log entry 42). R84 gives CL its values when RESET_N is released, and the rules of log entry 48 name no value of theirs for the time
while it is low: here every block has its reset values from RESET_N_LOW on (DESIGN CHOICE, log entry 48). -/
def State.blank (power : Power) (base : BitVec 11) (pending : List Instr) : State :=
  { power, vp := { base }, pending }

/-- POWER_ON_RESET (R136, R173). -/
def execPowerOnReset (straps : Straps) (s : State) : Host.Outcome State Fault Refusal :=
  .next { State.fresh straps with pending := s.pending }

/-- RESET_N_LOW: everything in progress is abandoned and the part is silent. The base stays as it was read until the release reads
the straps again (R136, R166, R173, log entry 21). The fields whose values the spec gives only at the release have them already while
RESET_N is low (DESIGN CHOICE, log entry 48). -/
def execResetNLow (s : State) : Host.Outcome State Fault Refusal :=
  occurs s true (State.blank .inReset s.vp.base s.pending)

/-- RESET_N_RELEASE, which ends a reset that RESET_N_LOW began (R136, R173). -/
def execResetNRelease (straps : Straps) (s : State) : Host.Outcome State Fault Refusal :=
  .next (if s.power = .inReset then { State.fresh straps with pending := s.pending } else s)

/-- POWER_LOSS: everything is lost until the next POWER_ON_RESET (R166, log entry 7). -/
def execPowerLoss (s : State) : Host.Outcome State Fault Refusal :=
  .next (if s.power = .off then s else State.blank .off s.vp.base s.pending)

end Sys2Proof.Machine
end

