-- ==== Sys2Proof/Machine/TimeSteps.lean ====
section
/-! DEFINITION. The steps of the Time Base, the Poll Scheduler and the clocks they feed: CABIN_TIME_ADVANCE, SLOT_START, the two ticks and STEP_ADVANCE (R35 to R48). -/

namespace Sys2Proof.Machine

/-- CABIN_TIME_ADVANCE: one millisecond in CONFIG or RUN (R35, R36, R38). -/
def execCabinTimeAdvance (s : State) : Host.Outcome State Fault Refusal :=
  occurs s (s.mode != .hold) s.passMillisecond

/-- The samples of the line pass, and then `f` acts on the part as they leave it. -/
def afterLine (s : State) (line : Samples) (due : Bool) (f : State → State) : Host.Outcome State Fault Refusal :=
  match s.lc.pass line with
  | some l => occurs s due (f (s.putLine l))
  | none => .next s

/-- SLOT_START: PS takes a slot start that TB has raised, once the poll before it has its outcome (R34, R36, R40, R44). -/
def execSlotStart (s : State) (line : Samples := []) : Host.Outcome State Fault Refusal :=
  afterLine s line (decide (0 < s.tb.slotStarts) && s.lineIdle) State.takeSlotStart

/-- Ticks pass in CONFIG and RUN, and in HOLD once the step in progress has settled (R38, R39). -/
def State.ticksPass (s : State) : Bool := s.mode != .hold || s.stepSettled

/-- OU takes the oldest 10 ms tick, after the deadline test where a STEP hands the tick out (R39, R116, R126, R128). -/
def State.takeTick10 (s : State) : State :=
  let t := if s.mode = .hold then s.testDeadlines else s
  match t.tb.ticks10 with
  | [] => t
  | v :: rest => State.outputTick { t with tb := { t.tb with ticks10 := rest } } v

/-- TICK_10MS (R38). -/
def execTick10ms (s : State) : Host.Outcome State Fault Refusal :=
  occurs s (s.ticksPass && !s.tb.ticks10.isEmpty) s.takeTick10

/-- RU takes the oldest 100 ms tick, after the deadline test where a STEP hands the tick out (R39, R108, R112, R113, R116). -/
def State.takeTick100 (s : State) : State :=
  let t := if s.mode = .hold then s.testDeadlines else s
  match t.tb.ticks100 with
  | [] => t
  | v :: rest => State.reminderTick { t with tb := { t.tb with ticks100 := rest } } v

/-- No move that an earlier tick or test has made due is still to be taken (R112, R113). -/
def State.movesTaken (s : State) : Bool := allPos.all fun p => !s.ru.records[p].expiring && !s.ru.records[p].triggered

/-- TICK_100MS: the moves that earlier ticks made due come before it (R38, R112, R113). -/
def execTick100ms (s : State) : Host.Outcome State Fault Refusal :=
  occurs s (s.ticksPass && !s.tb.ticks100.isEmpty && s.movesTaken) s.takeTick100

/-- A step that has settled ends, and the next one begins, or the STEP is answered OK with its count (R39, R163). -/
def State.goOn (s : State) : State :=
  let t := if s.stepSettled then s.endStep else s
  match t.stepRun with
  | some run => if run.remaining = 0 then t.finish (okay (wordOf run.count)) else t.beginStep
  | none => t

/-- A STEP is in service and waits for nothing: its first step is still to begin, or the step in progress has settled (R39). -/
def State.stepReady (s : State) : Bool :=
  s.stepSettled || match s.stepRun with
    | some run => !run.inStep
    | none => false

/-- STEP_ADVANCE (R39, log entry 13). -/
def execStepAdvance (s : State) (line : Samples := []) : Host.Outcome State Fault Refusal :=
  afterLine s line s.stepReady State.goOn

end Sys2Proof.Machine
end

