-- ==== Sys2Proof/Machine/Dispatch.lean ====
section
/-! DEFINITION. One arm for each constructor of Instr: a direct call of its meaning. -/

namespace Sys2Proof.Machine

def exec (i : Instr) (s : State) : Host.Outcome State Fault Refusal :=
  match i with
  | .powerOnReset straps => Sys2Proof.Machine.execPowerOnReset straps s
  | .resetNLow => Sys2Proof.Machine.execResetNLow s
  | .resetNRelease straps => Sys2Proof.Machine.execResetNRelease straps s
  | .cabinTimeAdvance => Sys2Proof.Machine.execCabinTimeAdvance s
  | .slotStart line => Sys2Proof.Machine.execSlotStart s line
  | .tick10ms => Sys2Proof.Machine.execTick10ms s
  | .tick100ms => Sys2Proof.Machine.execTick100ms s
  | .pendingTrigger p => Sys2Proof.Machine.execPendingTrigger p s
  | .stageExpiry p => Sys2Proof.Machine.execStageExpiry p s
  | .graceDeadlineReached p => Sys2Proof.Machine.execGraceDeadlineReached p s
  | .pollSend line => Sys2Proof.Machine.execPollSend s line
  | .lineBusy line => Sys2Proof.Machine.execLineBusy s line
  | .pollEnd line => Sys2Proof.Machine.execPollEnd s line
  | .noReply line => Sys2Proof.Machine.execNoReply s line
  | .replyReceived line stop => Sys2Proof.Machine.execReplyReceived line stop s
  | .endOfFrameIdle line => Sys2Proof.Machine.execEndOfFrameIdle s line
  | .receptionLimit line => Sys2Proof.Machine.execReceptionLimit s line
  | .evaluationStart => Sys2Proof.Machine.execEvaluationStart s
  | .evaluationCompletion => Sys2Proof.Machine.execEvaluationCompletion s
  | .vpMsTick => Sys2Proof.Machine.execVpMsTick s
  | .speedStale => Sys2Proof.Machine.execSpeedStale s
  | .statusFrameDue kind => Sys2Proof.Machine.execStatusFrameDue kind s
  | .suppressionFrameDue => Sys2Proof.Machine.execSuppressionFrameDue s
  | .busOffRecovery => Sys2Proof.Machine.execBusOffRecovery s
  | .speedFrame frame => Sys2Proof.Machine.execSpeedFrame frame s
  | .powerModeFrame frame => Sys2Proof.Machine.execPowerModeFrame frame s
  | .transmitStart => Sys2Proof.Machine.execTransmitStart s
  | .transmitSuccess => Sys2Proof.Machine.execTransmitSuccess s
  | .lostArbitration => Sys2Proof.Machine.execLostArbitration s
  | .transmitFailure => Sys2Proof.Machine.execTransmitFailure s
  | .requestDiscarded ident data => Sys2Proof.Machine.execRequestDiscarded ident data s
  | .malformedRequest ident data => Sys2Proof.Machine.execMalformedRequest ident data s
  | .readWord ident data => Sys2Proof.Machine.execReadWord ident data s
  | .writeWord ident data => Sys2Proof.Machine.execWriteWord ident data s
  | .writePositionStation ident data => Sys2Proof.Machine.execWritePositionStation ident data s
  | .writeAirbagRelevant ident data => Sys2Proof.Machine.execWriteAirbagRelevant ident data s
  | .writeOverrideEnable ident data => Sys2Proof.Machine.execWriteOverrideEnable ident data s
  | .writeOverrideLatched ident data => Sys2Proof.Machine.execWriteOverrideLatched ident data s
  | .writeMasked ident data => Sys2Proof.Machine.execWriteMasked ident data s
  | .setModeRun ident data => Sys2Proof.Machine.execSetModeRun ident data s
  | .setModeHold ident data => Sys2Proof.Machine.execSetModeHold ident data s
  | .holdSettled => Sys2Proof.Machine.execHoldSettled s
  | .setModeConfig ident data => Sys2Proof.Machine.execSetModeConfig ident data s
  | .configEntry => Sys2Proof.Machine.execConfigEntry s
  | .step ident data => Sys2Proof.Machine.execStep ident data s
  | .stepAdvance line => Sys2Proof.Machine.execStepAdvance s line
  | .reidentify ident data => Sys2Proof.Machine.execReidentify ident data s
  | .resetRuntime ident data => Sys2Proof.Machine.execResetRuntime ident data s
  | .responseHandover => Sys2Proof.Machine.execResponseHandover s
  | .replyStartBit line => Sys2Proof.Machine.execReplyStartBit line s
  | .replyByteRead line stop => Sys2Proof.Machine.execReplyByteRead line stop s
  | .lineLowSample line => Sys2Proof.Machine.execLineLowSample line s
  | .powerLoss => Sys2Proof.Machine.execPowerLoss s

end Sys2Proof.Machine
end

