-- ==== Sys2Proof/Safety.lean ====
section
/-! DEFINITION. What a sound state is: the promises that the spec makes about every moment, each as a predicate of a state. -/

namespace Sys2Proof.Machine

/-- R50: the free list and the sixteen chains together hold 255 buckets. -/
def BucketsAccounted (ss : SampleStore) : Prop :=
  ss.freeLen + (allPos.map fun p => ss.chains[p].len).sum = 255

/-- R157: the chain cap lies in its range. -/
def CapInRange (t : Tables) : Prop := 8 ≤ t.globals.chainCap ∧ t.globals.chainCap ≤ 64

/-- R50, R157: the buckets are accounted for, and the chain cap, against which arrivals are held, lies in its range. -/
def StoreSound (s : State) : Prop :=
  BucketsAccounted s.ss ∧ CapInRange s.tables

/-- R2: no two fitted positions share a station and a place. -/
def PlacesDistinct (t : Tables) : Prop :=
  ∀ p q : Pos, p ≠ q → t.positions[p].station.isSome = true →
    t.positions[p].station = t.positions[q].station → t.positions[p].place ≠ t.positions[q].place

/-- R158: no two entries of the Calibration Table hold the same node id, 0 apart. -/
def NodesDistinct (t : Tables) : Prop :=
  ∀ e k : Fin 16, e ≠ k → t.calibration[e].nodeId ≠ 0 → t.calibration[e].nodeId ≠ t.calibration[k].nodeId

/-- R2, R158: the relations between entries that no accepted write breaks. -/
def TablesSound (s : State) : Prop :=
  PlacesDistinct s.tables ∧ s.tables.airbagPositions.length ≤ 2 ∧ NodesDistinct s.tables

/-- R94: a position's suppression state follows its committed class. -/
def SuppressionFollowsClass (s : State) : Prop := ∀ p : Pos, s.cl[p].supp = s.cl[p].committed.suppression

/-- R95, R96, R134, R140: OU holds position A's suppression state, and VP holds what it reports of A and B. -/
def SuppressionReported (s : State) : Prop :=
  s.ou.suppA = (s.tables.positionA.map s.suppEntry).map SuppEntry.state ∧
  s.vp.suppression.content = { a := s.tables.positionA.map s.suppEntry, b := s.tables.positionB.map s.suppEntry }

/-- R140: VP's class and quality contents are CL's, and its belt content is RU's. -/
def ReportsFollow (s : State) : Prop :=
  ∀ p : Pos, s.vp.cls.content[p] = s.cl[p].committed ∧ s.vp.quality.content[p] = s.cl[p].quality ∧
    s.vp.belt.content[p] = s.beltContent p

/-- R122, R123: OU's copy of each reminder state is RU's. -/
def CopiesFollow (s : State) : Prop := ∀ p : Pos, s.ou.reminders[p] = s.ru.records[p].state

/-- R110, R108: in CONFIG and with the ignition off every reminder is INACTIVE, and with the ignition off the ignition-on counter
is 0. -/
def RemindersClosed (s : State) : Prop :=
  ((s.mode = .config ∨ s.ignitionOn = false) → ∀ p : Pos, s.ru.records[p].state = .inactive) ∧
  (s.ignitionOn = false → s.ru.ignitionCount = 0)

/-- R103: each field of a reminder record is in use only in the states that use it. -/
def RecordSound (r : ReminderRecord) : Prop :=
  match r.state with
  | .inactive | .buckled | .expired => r.timer = 0 ∧ r.deadline = none ∧ r.remembered = none ∧ r.entryTime = 0
  | .pending => r.timer = 0 ∧ r.remembered = none ∧ r.entryTime = 0
  | .stage1 | .stage2 => r.deadline = none ∧ r.remembered = none
  | .suspended => r.entryTime = 0 ∧
    match r.remembered with
    | some .pending => r.timer = 0
    | some .stage1 | some .stage2 => r.deadline = none
    | some .expired => r.timer = 0 ∧ r.deadline = none
    | _ => False

/-- R103: every reminder record is sound. -/
def RecordsSound (s : State) : Prop := ∀ p : Pos, RecordSound s.ru.records[p]

/-- R43: the On-Demand Queue holds at most four stations, none of them twice. -/
def OnDemandSound (s : State) : Prop := s.ps.onDemand.length ≤ 4 ∧ s.ps.onDemand.Nodup

/-- R56: a position stands at most once in the Evaluation Queue, which so holds at most sixteen; the one under evaluation is the one WE
holds, and does not stand in the queue; and the scheduled flag is set exactly while a position is queued or under evaluation. -/
def EvaluationQueueSound (s : State) : Prop :=
  s.ss.evalQueue.Nodup ∧ s.ss.evalQueue.length ≤ 16 ∧
  ∀ p : Pos, (s.ss.chains[p].underEval = true ↔ s.we.map Evaluation.pos = some p) ∧
    (s.ss.chains[p].underEval = true → p ∉ s.ss.evalQueue) ∧
    (s.ss.chains[p].scheduled = true ↔ p ∈ s.ss.evalQueue ∨ s.ss.chains[p].underEval = true)

/-- R144, R145: the Event Queue holds at most sixteen records, and none while the EVENT slot is empty. -/
def EventsSound (s : State) : Prop := s.vp.eventQueue.length ≤ 16 ∧ (s.vp.eventSlot = none → s.vp.eventQueue = [])

/-- R139, R141 to R143, R148: VP's counts stay in their ranges, and BUS_OFF has no frame on the wire. -/
def PortSound (s : State) : Prop :=
  s.vp.rolling ≤ 14 ∧ s.vp.failures ≤ 32 ∧ s.vp.staleness ≤ 1000 ∧
  s.vp.suppression.elapsed ≤ 2000 ∧ s.vp.cls.elapsed ≤ 2000 ∧ s.vp.belt.elapsed ≤ 2000 ∧ s.vp.quality.elapsed ≤ 2000 ∧
  (s.vp.busOff = true → s.vp.wire = none)

/-- R167: while a change is in progress, MU serves the request that asked for it. -/
def ChangeServed (s : State) : Prop :=
  s.change ≠ .none → ∃ rec, s.mu.service = some { req := rec, work := .changing }

/-- R17, R25: a command of a byte with the samples `line` and the stop bit `stop` leaves LC at `l`: the samples pass, or, with none
before it, `stop` names the stop bit that LC has sampled last. -/
def StopBitSampled (s : State) (line : Samples) (stop : Bool) (l : LineController) : Prop :=
  s.lc.pass (line ++ [stop]) = some l ∨ line = [] ∧ s.lc = l ∧ (stop = true ↔ 0 < l.idleRun)

/-- R8, R9: what an exchange with station `st` that ends without a good reply does, from `s` to `t`, with the line left at `m`: a
station that is not ACTIVE keeps its record; an ACTIVE one counts a miss, which below the retry limit is all that changes outside
the line. -/
def ExchangeFailed (s : State) (m : LineController) (t : State) (st : Station) : Prop :=
  t.lc = m ∧
  (s.sm.nodes[st].state ≠ .active → t = { s with lc := m }) ∧
  (s.sm.nodes[st].state = .active → min (s.sm.nodes[st].misses + 1) 15 < s.tables.globals.retryLimit →
    t = { s with
      lc := m
      sm := { s.sm with nodes := s.sm.nodes.set st { s.sm.nodes[st] with misses := min (s.sm.nodes[st].misses + 1) 15 } } })

/-- The buckets of a list, from bucket `b` along `n` links (R50, R51). -/
def SampleStore.walk (ss : SampleStore) (b : BucketNo) : Nat → List BucketNo
  | 0 => []
  | n + 1 => b :: ss.walk ss.buckets[b].next n

/-- The buckets of the free list, from its head (R50). -/
def SampleStore.freeBuckets (ss : SampleStore) : List BucketNo := ss.walk ss.freeHead ss.freeLen

/-- The buckets of a position's chain, oldest first (R51). -/
def SampleStore.chainBuckets (ss : SampleStore) (p : Pos) : List BucketNo := ss.walk ss.chains[p].head ss.chains[p].len

/-- R50, R51: each bucket 1 to 255 stands once in the free list or in one chain; the free list's last bucket names bucket 0, and its
head is 0 when it is empty; a chain's tail is its last bucket and names bucket 0, and an empty chain has head and tail 0. -/
def BucketsLinked (ss : SampleStore) : Prop :=
  List.Perm (ss.freeBuckets ++ allPos.flatMap ss.chainBuckets) ((List.finRange 256).drop 1) ∧
  (∀ b, ss.freeBuckets.getLast? = some b → ss.buckets[b].next = 0) ∧ (ss.freeLen = 0 → ss.freeHead = 0) ∧
  ∀ p : Pos, (∀ b, (ss.chainBuckets p).getLast? = some b → ss.chains[p].tail = b ∧ ss.buckets[b].next = 0) ∧
    (ss.chains[p].len = 0 → ss.chains[p].head = 0 ∧ ss.chains[p].tail = 0)

/-- R3, R51, R63: no chain is longer than the chain cap; and in CONFIG, where the cap can be written, the routing is empty, and every
chain is unless SS still waits for its reset state. -/
def ChainsCapped (s : State) : Prop :=
  (∀ p : Pos, s.ss.chains[p].len ≤ s.tables.globals.chainCap) ∧
  (s.mode = .config → (∀ (st : Station) (q : Place), s.sm.routing[st][q] = none) ∧
    (s.change ≠ .resetSettling → ∀ p : Pos, s.ss.chains[p].len = 0))

/-- R50, R51, R53: the links of the store are sound and its chains within the cap. -/
def StoreLinked (s : State) : Prop := BucketsLinked s.ss ∧ ChainsCapped s

/-- R124, R127: OU's groups and its chime owner are those that its copies of the reminder states give. -/
def GroupsFollow (s : State) : Prop := (∀ g : Fin 6, s.ou.groups[g] = s.groupState g) ∧ s.ou.owner = s.chimeOwner

/-- The frame of a request as R136, R150 and R175 lay it out, at a part with identifier base `base`. -/
def requestFrame (base : BitVec 11) (r : RequestRecord) : CanFrame :=
  { ident := match r.level with
      | .operational => base
      | .service => base + 1
    data := [r.echo, r.id, r.entry, r.word, r.value.setWidth 8, (r.value >>> (8 : Nat)).setWidth 8,
      r.mask.setWidth 8, (r.mask >>> (8 : Nat)).setWidth 8] }

/-- R150: the record of a request of kind `k`, whose kind and tag are the two nibbles of its echo byte. -/
def RequestRecord.ofKind (r : RequestRecord) (k : Nat) : Prop := r.echo.toNat / 16 = k ∧ r.kind = k ∧ r.tag = r.echo.setWidth 4

/-! ## The tables and the views, as spec/10 and spec/12 lay them out -/

/-- R154: each table and view with its id, its number of entries and its words per entry. -/
def itemShapes : List (Nat × Nat × Nat) :=
  [(1, 16, 4), (2, 16, 49), (3, 1, 9), (4, 1, 9), (5, 4, 9), (6, 64, 1), (7, 1, 11), (8, 2, 2), (9, 7, 2), (10, 8, 6), (11, 16, 12)]

/-- R154: the table id of an item. -/
def Address.tableId : Address → Nat
  | .position _ _ => 1
  | .calibration _ _ => 2
  | .bank .a _ => 3
  | .bank .b _ => 4
  | .profile _ _ => 5
  | .schedule _ => 6
  | .globals _ => 7
  | .input _ _ => 8
  | .override _ _ => 9
  | .node _ _ => 10
  | .context _ _ => 11

/-- R154: the entry of an item; a table of one entry has entry 0. -/
def Address.entryNo : Address → Nat
  | .position p _ => p.val
  | .calibration e _ => e.val
  | .bank _ _ => 0
  | .profile e _ => e.val
  | .schedule i => i.val
  | .globals _ => 0
  | .input e _ => e.val
  | .override e _ => e.val
  | .node e _ => e.val
  | .context p _ => p.val

/-- R154: the word of an item; the Poll Schedule Table has word 0 alone. -/
def Address.wordNo : Address → Nat
  | .position _ w => w.val
  | .calibration _ w => w.val
  | .bank _ w => w.val
  | .profile _ w => w.val
  | .schedule _ => 0
  | .globals w => w.val
  | .input _ w => w.val
  | .override _ w => w.val
  | .node _ w => w.val
  | .context _ w => w.val

/-- R155: the items that only the service identifier may touch: the Calibration Table, and Position Table word 3. -/
def Address.ServiceOnly (a : Address) : Prop := a.tableId = 2 ∨ a.tableId = 1 ∧ a.wordNo = 3

/-- R156: the modes in which each table is writable. -/
def Address.OpenIn (a : Address) (m : Mode) : Prop :=
  match a.tableId with
  | 1 | 2 | 6 | 7 | 8 => m = .config
  | 3 | 4 | 5 => m = .config ∨ m = .hold
  | 9 => a.wordNo = 1 ∨ m = .config ∨ m = .hold
  | _ => False

/-- `v` lies between the two ends of row `w` of `ranges`. -/
def WithinRow (ranges : List (Nat × Nat)) (w v : Nat) : Prop := ∃ r, ranges[w]? = some r ∧ r.1 ≤ v ∧ v ≤ r.2

/-- R157, R178: the values that each table word may be given. The ranges of tables 3 to 5 and 7 are those of their words from 0 on. -/
def Address.Takes (a : Address) (v : Nat) : Prop :=
  match a.tableId, a.wordNo with
  | 1, 0 => ∃ station place : Nat, station ≤ 8 ∧ place ≤ 3 ∧ v = station + 16 * place
  | 1, 1 => ∃ group profile bank applicable check : Nat, (group ≤ 5 ∨ group = 7) ∧ profile ≤ 3 ∧ bank ≤ 1 ∧ applicable ≤ 1 ∧
      check ≤ 1 ∧ v = group + 16 * profile + 64 * bank + 256 * applicable + 512 * check
  | 1, 2 => v ≤ 15
  | 1, _ => v ≤ 1
  | 2, w => if w = 0 then v ≤ 254 else if w ≤ 24 then v ≤ 1023 else v ≤ 255
  | 3, w | 4, w => WithinRow [(2, 16), (1, 16), (0, 1023), (1, 6), (0, 16383), (0, 16383), (0, 1023), (0, 16383), (1, 15)] w v
  | 5, w => WithinRow [(1, 255), (0, 255), (1, 255), (1, 255), (0, 255), (0, 1), (2, 255), (0, 255), (0, 255)] w v
  | 6, _ => v ≤ 8
  | 7, w => WithinRow [(2, 8), (1, 15), (1, 16), (8, 64), (1, 15), (2, 200), (0, 1), (2, 255), (0, 255), (0, 255), (1, 64)] w v
  | 8, w => if w = 0 then v ≤ 0x7FF else v ≤ 7
  | 9, _ => v ≤ 1
  | _, _ => False

/-- R158: entry `e` is the one that a write of `v` to item `a` conflicts with, in the tables `t` as they stand. -/
def Tables.ConflictsWith (t : Tables) (a : Address) (v : Nat) (e : Fin 16) : Prop :=
  match a with
  | .position p 0 =>
    let same := fun q : Pos => q ≠ p ∧ (t.positions[q].station.map fun st => st.val + 1) = some (v % 16) ∧
      t.positions[q].place.val = v / 16
    same e ∧ ∀ q < e, ¬ same q
  | .position p 3 =>
    let flagged := fun q : Pos => q ≠ p ∧ t.positions[q].airbag = true
    v = 1 ∧ flagged e ∧ (∃ q > e, flagged q) ∧ ∀ q < e, ¬ flagged q
  | .calibration k 0 =>
    let same := fun q : Fin 16 => q ≠ k ∧ t.calibration[q].nodeId.toNat = v
    v ≠ 0 ∧ same e ∧ ∀ q < e, ¬ same q
  | _ => False

/-- A list of numbers as the words of an entry. -/
def asWords (ns : List Nat) : List Word := ns.map (BitVec.ofNat 16)

/-- R178: the words of every table entry, each field at its bits. -/
def State.TableWords (s : State) : Prop :=
  let t := s.tables
  let station := fun o : Option Station => o.elim 0 fun st => st.val + 1
  let words := fun (n : Nat) (make : Fin n → Address) => (List.finRange n).map fun w => s.readAt (make w)
  let bank := fun b : Thresholds => asWords [b.w, b.h, b.cellOn, b.fPerson, b.tObj, b.tAdult, b.hm, b.dMax, b.c]
  (∀ p : Pos,
    let e := t.positions[p]
    words 4 (.position p) = asWords [station e.station + 16 * e.place.val,
      e.lampGroup.elim 7 (·.val) + 16 * e.profile.val + 64 * (if e.bank = .b then 1 else 0) + 256 * e.applicable.toNat +
        512 * e.childCheck.toNat,
      e.chimePriority, e.airbag.toNat]) ∧
  (∀ k : Fin 16, words 49 (.calibration k) =
    asWords ([t.calibration[k].nodeId.toNat] ++ t.calibration[k].offsets.toList ++ t.calibration[k].gains.toList)) ∧
  words 9 (.bank .a) = bank t.bankA ∧ words 9 (.bank .b) = bank t.bankB ∧
  (∀ i : Fin 4,
    let f := t.profiles[i]
    words 9 (.profile i) = asWords [f.speedOn, f.pendingDelay, f.stage1, f.stage2Max, f.grace, f.retrigger.toNat, f.chimeTotal,
      f.chimeStart, f.chimeEnd]) ∧
  (∀ i : Fin 64, s.readAt (.schedule i) = BitVec.ofNat 16 (station t.schedule[i])) ∧
  (let g := t.globals
   words 11 .globals = asWords [g.slotPeriod, g.retryLimit, g.probeDivider, g.chainCap, g.roughLimit, g.statusPeriod,
     g.bankBEnable.toNat, g.flashTotal, g.flashStart, g.flashEnd, g.scheduleLength]) ∧
  words 2 (.input 0) = asWords [t.speedInput.ident.toNat, t.speedInput.byteIndex.val] ∧
  words 2 (.input 1) = asWords [t.powerInput.ident.toNat, t.powerInput.byteIndex.val] ∧
  ∀ i : Fin 7, words 2 (.override i) = asWords [s.ou.overrides[i].enable.toNat, s.ou.overrides[i].latched.toNat]

/-- R179, R180: the words of every Node Map and Position Context entry, each field at its bits. -/
def State.ViewWords (s : State) : Prop :=
  let reading := fun r : Option Reading => match r with
    | some .opened => 0
    | some .latched => 1
    | some .fault => 2
    | none => 3
  let reminder := fun r : Reminder => match r with
    | .inactive => 0
    | .buckled => 1
    | .pending => 2
    | .stage1 => 3
    | .stage2 => 4
    | .expired => 5
    | .suspended => 6
  (∀ st : Station,
    let n := s.sm.nodes[st]
    let state := match n.state with
      | .absent => 0
      | .active => 1
      | .linkLost => 2
    ((List.finRange 6).map fun w => s.readAt (.node st w)) = asWords [state + 16 * n.places + 256 * n.nodeId.toNat,
      n.calIndex.elim 0xFF (·.val), n.misses + 16 * n.hopReported.toNat, n.sequence.toNat, n.latency, n.probe]) ∧
  ∀ p : Pos,
    let k := s.cl[p]
    let c := s.ss.chains[p]
    let b := s.ru.buckles[p]
    let r := s.ru.records[p]
    let quality := k.quality.rough.toNat + 2 * k.quality.sampleLoss.toNat + 4 * k.quality.defaultCal.toNat + 8 * k.quality.linkDown.toNat
    let deadline := r.deadline.elim 0 BitVec.toNat
    ((List.finRange 12).map fun w => s.readAt (.context p w)) = asWords [
      k.committed.code + 16 * k.candidate.elim 0 Cls.code + 256 * k.confirm + 4096 * k.disturbedRun,
      k.lastL + 16384 * k.supp.code,
      k.lastD + 16384 * c.scheduled.toNat + 32768 * c.underEval.toNat,
      k.lastF + 8 * c.loss.toNat + 16 * k.lastRaw.code + 256 * quality + 4096 * reading b.confirmed + 16384 * reading b.last,
      c.head.val + 256 * c.tail.val,
      c.len + 256 * c.epoch.toNat,
      r.timer + 4096 * reminder r.state + 32768 * r.deadline.isSome.toNat,
      r.remembered.elim 0 reminder + 16 * reading b.captureState + 256 * b.captureSpeed.toNat,
      b.captureTime.toNat % 65536,
      if c.len = 0 then 0 else s.ss.buckets[c.tail].time.toNat % 65536,
      deadline % 65536, deadline / 65536]

/-! ## What is handed on -/

/-- R140 to R142: content `c` is handed to a report kind, from `r` to `u`. Content that is as it was changes nothing; other content
makes the report due when its slot is not pending and the period has passed, or the gap has and `c` is not what was sent last. -/
def Handed {κ : Type} (r u : Report κ) (c : κ) (period gap : Nat) : Prop :=
  u = { r with content := c, due := u.due } ∧
  (u.due = true ↔ r.due = true ∨
    c ≠ r.content ∧ r.pending = false ∧ (period ≤ r.elapsed ∨ r.lastSent ≠ some c ∧ gap ≤ r.elapsed))

/-- R140 to R142: a report kind is handed a content for each of `xs` in turn, from `r` to `u`, the one that `content` makes of the
content so far. -/
def HandedInTurn {α κ : Type} (content : α → κ → κ) (period gap : Nat) : List α → Report κ → Report κ → Prop
  | [], r, u => u = r
  | x :: xs, r, u => ∃ m : Report κ, Handed r m (content x r.content) period gap ∧ HandedInTurn content period gap xs m u

/-- R96: from `s` to `t`, OU has the suppression state of position A, and VP the index, state and class of A and B. -/
def SuppressionHanded (s t : State) : Prop :=
  let entry := fun q : Pos => ({ pos := q, state := t.cl[q].supp, cls := t.cl[q].committed } : SuppEntry)
  t.ou.suppA = (t.tables.positionA.map fun q => t.cl[q].supp) ∧
  Handed s.vp.suppression t.vp.suppression { a := t.tables.positionA.map entry, b := t.tables.positionB.map entry } 50 10

/-- R98: CL's record of a position, from `s` to `t`, by whether the position is fitted in each. -/
def ClassFitted (s t : State) (p : Pos) : Prop :=
  match (s.entry p).station, (t.entry p).station with
  | some _, none => t.cl[p] = { s.cl[p] with
      committed := .notConfigured, supp := .suppress, quality := { s.cl[p].quality with linkDown := false, defaultCal := false } }
  | none, some _ => t.cl[p] = { s.cl[p] with committed := .unknown, supp := .indeterminate }
  | some _, some _ | none, none => t.cl[p] = s.cl[p]

/-- R95, R98, R161: what a write of word 0 of the entries of the positions `ps`, in ascending order, makes of CL, RU, OU and VP, from
`s` to `t`. Each position whose class changes hands it to VP in its turn, and one that is airbag-relevant has CL hand OU and VP the
suppression as it then stands; each position that is unfitted hands VP its quality flags (log entry 28). A reminder that is INACTIVE,
as it is in CONFIG (R110), stays so. -/
def FittingsWritten (s t : State) (ps : List Pos) : Prop :=
  let changed := fun p : Pos => decide (t.cl[p].committed ≠ s.cl[p].committed)
  let unfitted := fun p : Pos => (s.entry p).station.isSome && (t.entry p).station.isNone
  let period := s.tables.globals.statusPeriod * 10
  let reporting := ps.filter fun p => changed p && (s.entry p).airbag
  let entry := fun p q : Pos =>
    let k := if q ≤ p then t.cl[q] else s.cl[q]
    ({ pos := q, state := k.supp, cls := k.committed } : SuppEntry)
  (∀ p ∈ ps, ClassFitted s t p) ∧ (∀ q : Pos, q ∉ ps → t.cl[q] = s.cl[q]) ∧
  HandedInTurn (fun p c => if changed p then c.set p t.cl[p].committed else c) period 20 ps s.vp.cls t.vp.cls ∧
  HandedInTurn (fun p c => if unfitted p then c.set p t.cl[p].quality else c) period 20 ps s.vp.quality t.vp.quality ∧
  HandedInTurn (fun p _ => { a := t.tables.positionA.map (entry p), b := t.tables.positionB.map (entry p) }) 50 10 reporting
    s.vp.suppression t.vp.suppression ∧
  t.ou.suppA = (if reporting = [] then s.ou.suppA else t.tables.positionA.map fun q => t.cl[q].supp) ∧
  ((∀ p ∈ ps, s.ru.records[p].state = .inactive) →
    t.ru = { s.ru with records := t.ru.records } ∧
    (∀ q : Pos, t.ru.records[q] = if q ∈ ps ∧ changed q = true ∧ unfitted q = true then
      { state := .inactive } else s.ru.records[q]) ∧
    t.ou = { s.ou with suppA := t.ou.suppA } ∧
    t.vp = { s.vp with cls := t.vp.cls, quality := t.vp.quality, suppression := t.vp.suppression })

/-- R96, R97: what a write of airbag-relevant flags makes of CL, RU, OU and VP, from `s` to `t`: no class and no state changes, and A
and B are the lower and the higher of the flagged positions. -/
def FlagsWritten (s t : State) : Prop :=
  let below := fun q : Pos => (Finset.univ.filter fun r : Pos => r < q ∧ (t.entry r).airbag = true).card
  t.cl = s.cl ∧ t.ru = s.ru ∧ t.ou = { s.ou with suppA := t.ou.suppA } ∧ t.vp = { s.vp with suppression := t.vp.suppression } ∧
  SuppressionHanded s t ∧
  ∀ q : Pos, (t.tables.positionA = some q ↔ (t.entry q).airbag = true ∧ below q = 0) ∧
    (t.tables.positionB = some q ↔ (t.entry q).airbag = true ∧ below q = 1)

/-- The part can serve a request: it is powered and out of reset, its port is ACTIVE, and MU is IDLE (R148, R150, R173). -/
def State.serves (s : State) : Prop := s.power = .on ∧ s.vp.busOff = false ∧ s.mu.service = none

/-- R85: the effective T_obj beside a committed class, written out. -/
def objBoundary (b : Thresholds) (committed : Cls) : Nat :=
  match committed with
  | .empty => min (b.tObj + b.hm) 16383
  | .object | .smallOccupant | .adult => b.tObj - b.hm
  | .unknown | .childSeatRear | .childSeatFwd | .notConfigured => b.tObj

/-- R85: the effective T_adult beside a committed class, written out. -/
def adultBoundary (b : Thresholds) (committed : Cls) : Nat :=
  match committed with
  | .empty | .object | .smallOccupant => min (b.tAdult + b.hm) 16383
  | .adult => b.tAdult - b.hm
  | .unknown | .childSeatRear | .childSeatFwd | .notConfigured => b.tAdult

/-- R89, R90: what a clean window of raw class `raw` makes of a record, given C. -/
def afterCleanWindow (r : ClassRecord) (raw : Cls) (c : Nat) : Cls × Option Cls × Nat :=
  if raw = r.committed then (r.committed, none, 0)
  else if r.committed = .unknown then (raw, none, 0)
  else if r.candidate = some raw then
    if c ≤ r.confirm + 1 then (raw, none, 0) else (r.committed, some raw, r.confirm + 1)
  else if c = 1 ∨ raw = .childSeatRear then (raw, none, 0)
  else (r.committed, some raw, 1)

/-- R112: the trigger with the ignition-on counter at `n` and the speed reading `speed`. -/
def triggerAt (f : Profile) (speed : Byte) (n : Nat) : Prop :=
  f.speedOn ≤ speed.toNat ∨ f.pendingDelay ≠ 255 ∧ f.pendingDelay * 10 ≤ n

/-- R112, R116: a position that has just come to PENDING with the record `r` meets its tests at once: a deadline that Cabin Time `now`
has reached takes it to STAGE_2, and without a deadline a trigger that holds takes it to STAGE_1. -/
def ReminderRecord.PendingTested (r u : ReminderRecord) (f : Profile) (speed : Byte) (n : Nat) (now : Time) : Prop :=
  match r.deadline with
  | some d =>
    ((now - d).toNat < 2 ^ 31 → u = { state := .stage2, timer := f.stage2Max * 10, entryTime := now }) ∧
    (2 ^ 31 ≤ (now - d).toNat → u = r)
  | none =>
    (triggerAt f speed n → u = { state := .stage1, timer := f.stage1 * 10, entryTime := now }) ∧
    (¬ triggerAt f speed n → u = r)

/-- R111: the record `u` that a position in INACTIVE goes to on becoming applicable. -/
def State.BecomesApplicable (s : State) (p : Pos) (u : ReminderRecord) : Prop :=
  if s.ru.buckles[p].confirmed = some .latched then u = { state := .buckled }
  else ReminderRecord.PendingTested { state := .pending } u (s.profileOf p) s.speedReading
    s.ru.ignitionCount s.tb.time

/-- R113: what a 100 ms tick of Cabin Time `v` makes of a reminder record, the moves it causes taken at Cabin Time `now`; `n` is the
ignition-on counter after the tick. -/
def tickedRecord (f : Profile) (speed : Byte) (now v : Time) (n : Nat) (r : ReminderRecord) : ReminderRecord :=
  let counts := decide (2 ^ 31 ≤ (r.entryTime - v).toNat)
  match r.state with
  | .stage1 =>
    if counts then
      if 1 < r.timer then { r with timer := r.timer - 1 }
      else { state := .stage2, timer := f.stage2Max * 10, entryTime := now }
    else r
  | .stage2 =>
    if counts then
      if 1 < r.timer then { r with timer := r.timer - 1 } else { state := .expired }
    else r
  | .pending =>
    if r.deadline = none ∧ (f.speedOn ≤ speed.toNat ∨ f.pendingDelay ≠ 255 ∧ f.pendingDelay * 10 ≤ n) then
      { state := .stage1, timer := f.stage1 * 10, entryTime := now }
    else r
  | .inactive | .buckled | .expired | .suspended => r

/-- R108: the ignition-on counter after a 100 ms tick of Cabin Time `v`. -/
def tickedCount (on : Bool) (since v : Time) (n : Nat) : Nat :=
  if on = true ∧ 2 ^ 31 ≤ (since - v).toNat then min (n + 1) 65535 else n

/-- R108, R112, R113: the counter and a position's record after a run of 100 ms ticks. -/
def tickedBy (s : State) (p : Pos) (ticks : List Time) (n : Nat) (r : ReminderRecord) : Nat × ReminderRecord :=
  ticks.foldl (fun nr v =>
    let m := tickedCount s.ignitionOn s.ru.ignitionTime v nr.1
    (m, tickedRecord (s.profileOf p) s.speedReading s.tb.time v m nr.2)) (n, r)

/-- R116: the record after the deadline test at Cabin Time `now`. -/
def deadlineTaken (f : Profile) (now : Time) (r : ReminderRecord) : ReminderRecord :=
  if r.deadlineReached now then { state := .stage2, timer := f.stage2Max * 10, entryTime := now } else r

/-- R112, R113: the record after the move that an earlier tick or test has marked as due (log entry 14), taken at Cabin Time `now`. -/
def markTaken (f : Profile) (now : Time) (r : ReminderRecord) : ReminderRecord :=
  match r.state with
  | .pending =>
    if r.triggered = true ∧ r.deadline = none then { state := .stage1, timer := f.stage1 * 10, entryTime := now } else r
  | .stage1 => if r.expiring = true then { state := .stage2, timer := f.stage2Max * 10, entryTime := now } else r
  | .stage2 => if r.expiring = true then { state := .expired } else r
  | .inactive | .buckled | .expired | .suspended => r

/-- R39, R65: MU serves the STEP `run` with the request `req`, and its step in progress has its poll's outcome and has made its
evaluations. -/
def State.StepSettled (s : State) (req : RequestRecord) (run : StepRun) : Prop :=
  s.mode = .hold ∧ s.lc.poll = none ∧ s.we = none ∧ s.ss.evalQueue = [] ∧
  s.mu.service = some { req, work := .stepping run } ∧ run.inStep = true

/-- R122 to R128, R140: OU's copies and VP's belt contents follow the reminders that changed from `s` to `t`, and a cadence counter
stands or restarts at the Cabin Time of the moves. Nothing else of OU and VP changes. -/
def RemindersHandedOn (s t : State) : Prop :=
  t.vp = { s.vp with belt := t.vp.belt } ∧
  t.ou = { s.ou with
    groups := t.ou.groups, flash := t.ou.flash, flashTime := t.ou.flashTime, owner := t.ou.owner, chime := t.ou.chime,
    chimeTime := t.ou.chimeTime, reminders := t.ou.reminders } ∧
  (t.ou.flash = s.ou.flash ∧ t.ou.flashTime = s.ou.flashTime ∨ t.ou.flash = 0 ∧ t.ou.flashTime = s.tb.time) ∧
  (t.ou.chime = s.ou.chime ∧ t.ou.chimeTime = s.ou.chimeTime ∨ t.ou.chime = 0 ∧ t.ou.chimeTime = s.tb.time) ∧
  ∀ p : Pos,
    let r := t.ru.records[p].state
    t.ou.reminders[p] = (if r = s.ru.records[p].state then s.ou.reminders[p] else r) ∧
    t.vp.belt.content[p] = if r = s.ru.records[p].state then s.vp.belt.content[p]
      else { buckle := s.ru.buckles[p].confirmed, indication := r.indication }

/-- R116: the deadline test of the settled step `run`, from `s` to `u`: it is made once in a step, before the step's first tick. -/
def StepDeadlinesTaken (s u : State) (req : RequestRecord) (run : StepRun) : Prop :=
  u = { s with ru := { s.ru with records := u.ru.records }, ou := u.ou, vp := u.vp,
               mu := { s.mu with service := some { req, work := .stepping { run with deadlinesTested := true } } } } ∧
  RemindersHandedOn s u ∧
  ∀ p : Pos, u.ru.records[p] =
    if run.deadlinesTested = true then s.ru.records[p] else deadlineTaken (s.profileOf p) s.tb.time s.ru.records[p]

/-- R39, R108, R112, R113, R116: the settled step `run` ends, from `s` to `u`: its deadline test is made, unless it was, then what
earlier ticks have marked is taken, and then RU takes the 100 ms ticks that the step met. The 10 ms ticks move nothing (R126, R128). -/
def StepEnded (s u : State) (req : RequestRecord) (run : StepRun) : Prop :=
  u = { s with
    tb := { s.tb with ticks10 := [], ticks100 := [] }, ru := u.ru, ou := u.ou, vp := u.vp
    mu := { s.mu with service := some { req, work := .stepping { run with inStep := false, deadlinesTested := true } } } } ∧
  RemindersHandedOn s u ∧
  u.ru = { s.ru with
    records := u.ru.records
    ignitionCount := s.tb.ticks100.foldl (fun n v => tickedCount s.ignitionOn s.ru.ignitionTime v n) s.ru.ignitionCount } ∧
  ∀ p : Pos,
    let r := if run.deadlinesTested = true then s.ru.records[p] else deadlineTaken (s.profileOf p) s.tb.time s.ru.records[p]
    u.ru.records[p] = (tickedBy s p s.tb.ticks100 s.ru.ignitionCount (markTaken (s.profileOf p) s.tb.time r)).2 ∧
    (run.deadlinesTested = false → u.ru.records[p].deadlineReached u.tb.time = false)

/-- R108, R112, R113: RU takes a 100 ms tick of Cabin Time `v`, from `s` to `t`, and `rest` waits behind it: the ignition-on counter
rises, the stage timers fall, and what the tick makes due is marked (log entry 14). The stage entry times stand. -/
def HundredTicked (s t : State) (v : Time) (rest : List Time) : Prop :=
  t = { s with tb := { s.tb with ticks100 := rest }, ru := t.ru } ∧
  t.ru.buckles = s.ru.buckles ∧ t.ru.ignitionTime = s.ru.ignitionTime ∧
  t.ru.ignitionCount =
    (if s.ignitionOn = true ∧ 2 ^ 31 ≤ (s.ru.ignitionTime - v).toNat then min (s.ru.ignitionCount + 1) 65535
     else s.ru.ignitionCount) ∧
  ∀ p : Pos,
    let r := s.ru.records[p]
    let u := t.ru.records[p]
    let counts := (r.state = .stage1 ∨ r.state = .stage2) ∧ 2 ^ 31 ≤ (r.entryTime - v).toNat
    u.state = r.state ∧ u.remembered = r.remembered ∧ u.deadline = r.deadline ∧ u.entryTime = r.entryTime ∧
    u.timer = (if counts ∧ 1 < r.timer then r.timer - 1 else r.timer) ∧
    (u.expiring = true ↔ counts ∧ r.timer ≤ 1) ∧
    (u.triggered = true ↔ r.state = .pending ∧ r.deadline = none ∧
      ((s.profileOf p).speedOn ≤ s.speedReading.toNat ∨
        ((s.profileOf p).pendingDelay ≠ 255 ∧ (s.profileOf p).pendingDelay * 10 ≤ t.ru.ignitionCount)))

/-- R14, R62: a chain after a flush: a position under evaluation keeps both flags, and one that only waits is scheduled no more. -/
def flushedChain (c : Chain) : Chain :=
  { head := 0, tail := 0, len := 0, scheduled := c.scheduled && c.underEval, underEval := c.underEval, epoch := c.epoch + 1, loss := c.loss }

/-- R14, R50, R62: what flushes of the positions that `flushed` names, and of no others, make of the Evaluation Queue and of the length
of the free list, from `ss` to `tt`: the waiting ones leave the queue, the others keep their order, and every bucket of the chains is
returned. -/
def QueueFlushed (ss tt : SampleStore) (flushed : Pos → Bool) : Prop :=
  tt.evalQueue = ss.evalQueue.filter (fun q => !(flushed q && ss.chains[q].scheduled && !ss.chains[q].underEval)) ∧
  tt.freeLen = ss.freeLen + (((List.finRange 16).filter flushed).map fun q => ss.chains[q].len).sum

/-- R10 to R14, R62, R93, R106: the parts of SS, CL and RU in a flush of position `q` for a link loss or a seat change, the quality
flags and the reminder apart. -/
def FlushedFor (s t : State) (q : Pos) : Prop :=
  t.ss.chains[q] = flushedChain s.ss.chains[q] ∧
  t.cl[q].committed = (if (s.entry q).station.isSome then Cls.unknown else Cls.notConfigured) ∧
  t.cl[q].candidate = none ∧ t.cl[q].confirm = 0 ∧ t.cl[q].disturbedRun = 0 ∧
  t.ru.buckles[q] = { s.ru.buckles[q] with last := none, confirmed := none } ∧
  (s.cl[q].committed ≠ .unknown → (s.entry q).station.isSome = true →
    (s.ru.records[q].state = .pending ∨ s.ru.records[q].state = .stage1 ∨ s.ru.records[q].state = .stage2 ∨ s.ru.records[q].state = .expired) →
    t.ru.records[q] = {
      state := .suspended, remembered := some s.ru.records[q].state, timer := s.ru.records[q].timer, deadline := s.ru.records[q].deadline })

/-- Position `q` stands in SS, CL and RU as it stood. -/
def Untouched (s t : State) (q : Pos) : Prop :=
  t.ss.chains[q] = s.ss.chains[q] ∧ t.cl[q] = s.cl[q] ∧ t.ru.buckles[q] = s.ru.buckles[q] ∧ t.ru.records[q] = s.ru.records[q]

/-- R144, R145: what the queuing of record `r` makes of the EVENT slot and the Event Queue, from `v` to `w`: with both empty the
record goes to the slot; while a record stands in the slot it joins the queue at the tail; and at sixteen records it is dropped, with
LOST set on the newest one. -/
def EventTaken (v w : VehiclePort) (r : EventRecord) : Prop :=
  (v.eventSlot = none → v.eventQueue = [] → w.eventSlot = some r ∧ w.eventQueue = []) ∧
  (v.eventSlot ≠ none →
    w.eventSlot = v.eventSlot ∧
    (v.eventQueue.length < 16 → w.eventQueue = v.eventQueue ++ [r]) ∧
    ∀ (older : List EventRecord) (newest : EventRecord), v.eventQueue = older ++ [newest] → 16 ≤ v.eventQueue.length →
      w.eventQueue = older ++ [{ newest with lost := true }])

/-- R144, R145: these records, and no others, are queued one after the other, from `v` to `w`. -/
def EventsQueued (v w : VehiclePort) : List EventRecord → Prop
  | [] => w.eventSlot = v.eventSlot ∧ w.eventQueue = v.eventQueue
  | r :: later => ∃ u : VehiclePort, EventTaken v u r ∧ EventsQueued u w later

/-- R144: the record of an event that is queued in the state `s`. -/
def eventOf (s : State) (kind : EventKind) (subject detail0 detail1 : Byte) : EventRecord :=
  { kind, subject, detail0, detail1, stamp := s.tb.time.setWidth 24, lost := false }

/-- From `s` to `t` this event is queued, and no other (R144, R145). -/
def EventGoesOut (s t : State) (kind : EventKind) (subject detail0 detail1 : Byte) : Prop :=
  EventTaken s.vp t.vp (eventOf s kind subject detail0 detail1)

/-- R5, R11, R13, R15: the CAL_MISSING event of station `st`, where no Calibration Table entry names its node. -/
def calMissingEvents (s : State) (st : Station) (node : Byte) : List EventRecord :=
  if ∃ e : Fin 16, s.tables.calibration[e].nodeId = node then []
  else [eventOf s .calMissing (BitVec.ofNat 8 (st.val + 1)) node 0]

/-- R12: the PLACE_MISSING events of a station with `places` places, in ascending position; `placeOf` gives the place of each position
that the routing maps to the station. -/
def placeMissingEvents (s : State) (placeOf : Pos → Option Place) (places : Nat) : List EventRecord :=
  (List.finRange 16).flatMap fun q =>
    match placeOf q with
    | some k => if places ≤ k.val then [eventOf s .placeMissing (BitVec.ofNat 8 q.val) (BitVec.ofNat 8 places) 0] else []
    | none => []

/-- R169: the entry to CONFIG, from `s` to `t`, MU's request and the change in progress apart. -/
def ConfigEntered (s t : State) : Prop :=
  t = { s with
    mode := .config, change := t.change, ps := { s.ps with onDemand := [], sweep := 0 },
    sm := { s.sm with routing := t.sm.routing }, ss := t.ss, cl := t.cl, ru := t.ru, ou := t.ou, vp := t.vp, mu := t.mu } ∧
  (∀ (st : Station) (q : Place), t.sm.routing[st][q] = none) ∧ t.ru.ignitionCount = s.ru.ignitionCount ∧
  EventGoesOut s t .modeChanged 0 0 0 ∧ QueueFlushed s.ss t.ss (fun _ => true) ∧
  ∀ p : Pos, t.ru.records[p].state = .inactive ∧ t.ru.records[p].timer = 0 ∧ t.ru.records[p].deadline = none ∧
    t.ru.buckles[p] = { s.ru.buckles[p] with last := none, confirmed := none } ∧
    t.ss.chains[p] = flushedChain s.ss.chains[p] ∧
    t.cl[p].committed = (if (s.entry p).station.isSome then Cls.unknown else Cls.notConfigured) ∧
    t.cl[p].candidate = none ∧ t.cl[p].confirm = 0 ∧ t.cl[p].lastL = s.cl[p].lastL

/-- R49, R50, R64: SS at its reset state, with the contents of the buckets kept. -/
def StoreReset (s t : State) : Prop :=
  t.ss = { buckets := t.ss.buckets, freeHead := 1, freeLen := 255,
           chains := Vector.replicate 16 { head := 0, tail := 0, len := 0, scheduled := false, underEval := false, epoch := 0, loss := false },
           evalQueue := [] } ∧
  ∀ b : BucketNo, t.ss.buckets[b] = { s.ss.buckets[b] with next := if b = 0 then 0 else b + 1 }

/-- R172: what a RESET_RUNTIME resets at once, from `s` to `t`; SS, MU's request and the change in progress apart. -/
def RuntimeReset (s t : State) : Prop :=
  let changed : EventRecord := { kind := .modeChanged, subject := 0, detail0 := 0, detail1 := 0, stamp := s.tb.time.setWidth 24, lost := false }
  let kept := if s.vp.wire.map Attempt.payload = some .event then s.vp.eventSlot else none
  let cls := fun p : Pos => if (s.entry p).station.isSome then Cls.unknown else Cls.notConfigured
  let entry := fun p : Pos => ({ pos := p, state := (cls p).suppression, cls := cls p } : SuppEntry)
  t = { s with
    mode := .config, change := t.change, ps := { slotIndex := 0, onDemand := [], sweep := 0 }, sm := t.sm, ss := t.ss, cl := t.cl,
    ru := t.ru, ou := t.ou, vp := t.vp, mu := t.mu } ∧
  (∀ st : Station, t.sm.nodes[st] = { state := .absent, nodeId := 0, places := 0, calIndex := none, misses := 0, latency := 0, sequence := 0, probe := 0, hopReported := false } ∧
    ∀ q : Place, t.sm.routing[st][q] = none) ∧
  (∀ p : Pos, t.cl[p] = { committed := cls p, candidate := none, confirm := 0, disturbedRun := 0, lastL := 0, lastD := 0, lastF := 0, lastRaw := .unknown, quality := { rough := false, sampleLoss := false, defaultCal := false, linkDown := false }, supp := (cls p).suppression }) ∧
  t.ru = {
    buckles := Vector.replicate 16 { last := none, confirmed := none, captureTime := 0, captureSpeed := 0, captureState := none }
    records := Vector.replicate 16 { state := .inactive, remembered := none, timer := 0, deadline := none, entryTime := 0, expiring := false, triggered := false }
    ignitionCount := 0, ignitionTime := s.tb.time } ∧
  t.ou = {
    groups := Vector.replicate 6 .off, flash := 0, flashTime := 0, owner := none, chime := 0, chimeTime := 0
    held := Vector.replicate 6 false, reminders := Vector.replicate 16 .inactive
    overrides := t.ou.overrides, suppA := s.tables.positionA.map fun p => (entry p).state } ∧
  (∀ i : Fin 7, t.ou.overrides[i] = { enable := false, latched := s.ou.overrides[i].latched }) ∧
  t.vp = { s.vp with
    rolling := 0, wire := s.vp.wire.map fun a => { a with resetSince := true }
    eventSlot := some (kept.getD changed), eventQueue := if kept = none then [] else [changed]
    suppression := { s.vp.suppression with
      content := { a := s.tables.positionA.map entry, b := s.tables.positionB.map entry }, due := t.vp.suppression.due }
    cls := { s.vp.cls with content := Vector.ofFn cls, due := t.vp.cls.due }
    belt := { s.vp.belt with content := Vector.replicate 16 { buckle := none, indication := .none }, due := t.vp.belt.due }
    quality := { s.vp.quality with
      content := Vector.replicate 16 { rough := false, sampleLoss := false, defaultCal := false, linkDown := false }, due := t.vp.quality.due } }

/-- R15, R171: the quality flags of a position after an entry to RUN. -/
def RunFlags (s t : State) (p : Pos) : Prop :=
  match (s.entry p).station with
  | some st =>
    let n := s.sm.nodes[st]
    t.cl[p].quality =
      if n.state = .active then
        { rough := false, sampleLoss := false, defaultCal := (s.tables.findCalibration n.nodeId).isNone
          linkDown := decide (n.places ≤ (s.entry p).place.val) }
      else { s.cl[p].quality with rough := false, sampleLoss := false, linkDown := true }
  | none => t.cl[p].quality = { s.cl[p].quality with rough := false, sampleLoss := false }

/-- R170: the ten checks in their order. A position check names the lowest position that fails it. -/
def FirstFlaw (t : Tables) : Prop :=
  let fitted := fun p : Pos => t.positions[p].station.isSome = true
  let listed := fun p : Pos => fitted p → ∃ i : Fin 64, i.val < t.globals.scheduleLength ∧ t.schedule[i] = t.positions[p].station
  let flagged := fun p : Pos => t.positions[p].airbag = true → fitted p
  let lengthOk := 1 ≤ t.globals.scheduleLength ∧ t.globals.scheduleLength ≤ 64
  let forceA := ∃ p : Pos, fitted p ∧ (t.globals.bankBEnable = false ∨ t.positions[p].bank = .a)
  let forceB := ∃ p : Pos, fitted p ∧ t.globals.bankBEnable = true ∧ t.positions[p].bank = .b
  let soundA := forceA → t.bankA.tObj < t.bankA.tAdult ∧ t.bankA.h ≤ t.bankA.w ∧ t.bankA.w ≤ t.globals.chainCap
  let bankFlawed := fun (b : Thresholds) (id : Byte) =>
    (b.tAdult ≤ b.tObj → t.flaw = some { table := id, entry := 0, word := 5 }) ∧
    (b.tObj < b.tAdult → b.w < b.h → t.flaw = some { table := id, entry := 0, word := 1 }) ∧
    (b.tObj < b.tAdult → b.h ≤ b.w → t.globals.chainCap < b.w → t.flaw = some { table := id, entry := 0, word := 0 })
  ((∀ p, ¬ fitted p) → t.flaw = some { table := 1, entry := 0xFF, word := 0 }) ∧
  ((∃ p, fitted p) → ¬ lengthOk → t.flaw = some { table := 7, entry := 0, word := 10 }) ∧
  ((∃ p, fitted p) → lengthOk →
    (∀ p, ¬ listed p → (∀ q < p, listed q) → t.flaw = some { table := 1, entry := BitVec.ofNat 8 p.val, word := 0 }) ∧
    ((∀ p, listed p) →
      (∀ p, ¬ flagged p → (∀ q < p, flagged q) → t.flaw = some { table := 1, entry := BitVec.ofNat 8 p.val, word := 0 }) ∧
      ((∀ p, flagged p) →
        (forceA → bankFlawed t.bankA 3) ∧ (soundA → forceB → bankFlawed t.bankB 4) ∧
        (soundA → (forceB → t.bankB.tObj < t.bankB.tAdult ∧ t.bankB.h ≤ t.bankB.w ∧ t.bankB.w ≤ t.globals.chainCap) → t.flaw = none))))

end Sys2Proof.Machine
end

