-- ==== Sys2Proof/WellFormed.lean ====
section
/-! DEFINITION. Which commands are well formed: a frame has a CAN data length and stands under a row that its bytes name, and a
LINE_LOW_SAMPLE ends in a low sample. -/

namespace Sys2Proof

/-- A classical CAN frame carries 0 to 8 data bytes (R137). -/
def lengthOk (data : List Byte) : Bool := data.length ≤ 8

/-- The last sample is low (R18). -/
def endsLow (line : Samples) : Bool := line.getLast? == some false

/-- A command of the row it stands under. -/
def Instr.wf : Instr → Bool
  | .speedFrame f => lengthOk f.data
  | .powerModeFrame f => lengthOk f.data
  | .requestDiscarded _ data => lengthOk data
  | .malformedRequest _ data => lengthOk data && malformedData data
  | .readWord _ data => isKind data 1
  | .writeWord _ data => isKind data 2 && !hasOwnRow data
  | .writePositionStation _ data => writesItem data 1 0
  | .writeAirbagRelevant _ data => writesItem data 1 3
  | .writeOverrideEnable _ data => writesItem data 9 0
  | .writeOverrideLatched _ data => writesItem data 9 1
  | .writeMasked _ data => isKind data 3
  | .setModeRun _ data => setsMode data 1
  | .setModeHold _ data => setsMode data 2
  | .setModeConfig _ data => setsMode data 0
  | .step _ data => isKind data 5
  | .reidentify _ data => isKind data 6
  | .resetRuntime _ data => isKind data 7
  | .lineLowSample line => endsLow line
  | .powerOnReset _ | .resetNLow | .resetNRelease _ | .cabinTimeAdvance | .slotStart _ | .tick10ms | .tick100ms
  | .pendingTrigger _ | .stageExpiry _ | .graceDeadlineReached _ | .pollSend _ | .lineBusy _ | .pollEnd _ | .noReply _
  | .replyReceived _ _ | .endOfFrameIdle _ | .receptionLimit _ | .evaluationStart | .evaluationCompletion | .vpMsTick
  | .speedStale | .statusFrameDue _ | .suppressionFrameDue | .busOffRecovery | .transmitStart | .transmitSuccess
  | .lostArbitration | .transmitFailure | .holdSettled | .configEntry | .stepAdvance _ | .responseHandover
  | .replyStartBit _ | .replyByteRead _ _ | .powerLoss => true

end Sys2Proof
end

