-- ==== Sys2Proof/Certificates/Slice0/Obligations.lean ====
section
/-! DEFINITION. The statements about the JF-416, for the provers. -/

section

open Sys2Proof Sys2Proof.Machine

/-! ## The step and the resets -/

/-- The step takes the command at the front of the queue and carries it out with the queue's rest; on an empty queue the part idles
(log entry 2). -/
def Obligations.StepRunsTheFrontCommand : Prop :=
  (∀ (c : Instr) (rest : List Instr) (s : State), s.pending = c :: rest → Sys2Proof.Machine.step s = exec c { s with pending := rest }) ∧
  ∀ s : State, s.pending = [] → Sys2Proof.Machine.step s = .next s

/-- Every command leaves the part in a next state, and the queue of the waiting commands as it was. That no condition of the spec
stops the part is the model's reading (log entry 19), and that a command outside its moment completes, with the part as it is, is
the model's choice (log entry 3). -/
def Obligations.EveryCommandAnswersANextState : Prop :=
  ∀ (c : Instr) (s : State), ∃ t, exec c s = .next t ∧ t.pending = s.pending

/-- POWER_ON_RESET from any state, and RESET_N_RELEASE from a part held in reset, leave every block at the value that the spec
states with its state, every table at its defaults, and the identifier base as the straps select it; the queue of waiting commands
alone is kept (R173). That no tick is raised at the Cabin Time 0 of a reset is the model's reading (log entry 24), and the `next` of
bucket 0 is its choice (log entry 37), as is that the captures are cleared (R103 against R105 and R106, log entry 42). -/
def Obligations.PowerOnResetRestoresEveryResetValue : Prop :=
  ∀ (straps : Straps) (s : State), ∃ t, exec (.powerOnReset straps) s = .next t ∧
    (s.power = .inReset → exec (.resetNRelease straps) s = .next t) ∧
    t.pending = s.pending ∧ t.power = .on ∧ t.mode = .config ∧ t.change = .none ∧
    t.tb = { time := 0, slotTimer := 2, slotStarts := 1, ticks10 := [], ticks100 := [] } ∧
    t.ps = { slotIndex := 0, onDemand := [], sweep := 0 } ∧
    t.lc.poll = none ∧ t.lc.buffer = [] ∧ t.lc.idleRun = 0 ∧ t.lc.candidate = none ∧ t.lc.drive = none ∧
    (∀ st : Station, t.sm.nodes[st] = { state := .absent, nodeId := 0, places := 0, calIndex := none, misses := 0, latency := 0, sequence := 0, probe := 0, hopReported := false } ∧
      ∀ q : Place, t.sm.routing[st][q] = none) ∧
    t.ss.freeHead = 1 ∧ t.ss.freeLen = 255 ∧ t.ss.evalQueue = [] ∧
    (∀ b : BucketNo, t.ss.buckets[b] = {
      sample := { cells := Vector.replicate 6 0, tag := .none, disturbed := false, buckle := .opened }, time := 0,
      next := if b = 0 then 0 else b + 1 }) ∧
    t.we = none ∧
    (∀ p : Pos,
      t.ss.chains[p] = { head := 0, tail := 0, len := 0, scheduled := false, underEval := false, epoch := 0, loss := false } ∧
      t.cl[p] = { committed := .notConfigured, candidate := none, confirm := 0, disturbedRun := 0, lastL := 0, lastD := 0, lastF := 0, lastRaw := .unknown, quality := { rough := false, sampleLoss := false, defaultCal := false, linkDown := false }, supp := .suppress } ∧
      t.ru.buckles[p] = { last := none, confirmed := none, captureTime := 0, captureSpeed := 0, captureState := none } ∧
      t.ru.records[p] = { state := .inactive, remembered := none, timer := 0, deadline := none, entryTime := 0, expiring := false, triggered := false } ∧
      t.ou.reminders[p] = .inactive ∧
      t.vp.cls.content[p] = .notConfigured ∧ t.vp.belt.content[p] = { buckle := none, indication := .none } ∧
      t.vp.quality.content[p] = { rough := false, sampleLoss := false, defaultCal := false, linkDown := false }) ∧
    t.tables = {
      positions := Vector.replicate 16 { station := none, place := 0, lampGroup := none, profile := 0, bank := .a, applicable := false, childCheck := false, chimePriority := 0, airbag := false }
      calibration := Vector.replicate 16 { nodeId := 0, offsets := Vector.replicate 24 0, gains := Vector.replicate 24 64 }
      bankA := { w := 8, h := 4, cellOn := 60, fPerson := 3, tObj := 200, tAdult := 1100, hm := 60, dMax := 400, c := 3 }
      bankB := { w := 8, h := 4, cellOn := 60, fPerson := 3, tObj := 200, tAdult := 1100, hm := 60, dMax := 400, c := 3 }
      profiles := Vector.replicate 4 { speedOn := 10, pendingDelay := 60, stage1 := 20, stage2Max := 90, grace := 30, retrigger := true, chimeTotal := 100, chimeStart := 0, chimeEnd := 30 }
      schedule := Vector.replicate 64 none
      globals := { slotPeriod := 2, retryLimit := 3, probeDivider := 4, chainCap := 24, roughLimit := 4, statusPeriod := 10, bankBEnable := false, flashTotal := 100, flashStart := 0, flashEnd := 50, scheduleLength := 1 }
      speedInput := { ident := 0x210, byteIndex := 0 }
      powerInput := { ident := 0x120, byteIndex := 0 } } ∧
    t.ru.ignitionCount = 0 ∧ t.ru.ignitionTime = 0 ∧
    (∀ g : Fin 6, t.ou.groups[g] = .off ∧ t.ou.held[g] = false ∧ t.lampLine g = false) ∧
    (∀ i : Fin 7, t.ou.overrides[i] = { enable := false, latched := false }) ∧
    t.ou.flash = 0 ∧ t.ou.flashTime = 0 ∧ t.ou.owner = none ∧ t.ou.chime = 0 ∧ t.ou.chimeTime = 0 ∧ t.ou.suppA = none ∧
    t.chimeLine = false ∧ t.suppressLine = false ∧
    t.vp.base = (if straps = 0 then 0x640 else if straps = 1 then 0x660 else if straps = 2 then 0x680 else 0x6A0) ∧
    t.vp.busOff = false ∧ t.vp.failures = 0 ∧ t.vp.speed = 0 ∧ t.vp.staleness = 1000 ∧ t.vp.powerMode = .off ∧
    t.vp.suppression.content = { a := none, b := none } ∧
    t.vp.suppression.pending = true ∧ t.vp.cls.pending = true ∧ t.vp.belt.pending = true ∧ t.vp.quality.pending = true ∧
    t.vp.suppression.elapsed = 0 ∧ t.vp.cls.elapsed = 0 ∧ t.vp.belt.elapsed = 0 ∧ t.vp.quality.elapsed = 0 ∧
    t.vp.suppression.lastSent = none ∧ t.vp.cls.lastSent = none ∧ t.vp.belt.lastSent = none ∧ t.vp.quality.lastSent = none ∧
    t.vp.response = none ∧ t.vp.eventSlot = none ∧ t.vp.eventQueue = [] ∧ t.vp.rolling = 0 ∧ t.vp.wire = none ∧
    t.mu.service = none ∧ t.mu.overlap = false

/-- RESET_N_LOW and POWER_LOSS abandon every exchange, evaluation, request and change in progress, and every table falls back to its
default; RESET_N_LOW drives all eight lines low and leaves the Seat Line alone. Until RESET_N is released, or power is applied
again, no other command acts on the part (R166, R173). That RESET_N_LOW keeps the base until the straps are read again is the
model's choice (R136, log entry 21), and so is that every other field has its reset value already while RESET_N is low, also where
the spec gives the value only at the release, as R84 does for CL (log entry 48). The values of a part without power (log entry 7),
that the captures are cleared (log entry 42), the `next` of bucket 0 (log entry 37) and that a command outside its moment leaves the
part as it is (log entry 3) are the model's choices too, and that no tick is raised at the Cabin Time 0 of a reset is its reading
(log entry 24). -/
def Obligations.ResetLowAndPowerLossAbandonEverything : Prop :=
  ∀ s : State,
    (s.power = .on → ∃ t, exec .resetNLow s = .next t ∧ t.power = .inReset ∧ t.vp.base = s.vp.base ∧
      (∀ g : Fin 6, t.lampLine g = false) ∧ t.chimeLine = false ∧ t.suppressLine = false ∧ t.lc.drive = none ∧
      t = { State.fresh 0 with power := .inReset, vp := { (State.fresh 0).vp with base := s.vp.base }, pending := s.pending } ∧
      ∀ c : Instr, (∀ straps, c ≠ .powerOnReset straps ∧ c ≠ .resetNRelease straps) → c ≠ .powerLoss → exec c t = .next t) ∧
    (s.power ≠ .off → ∃ t, exec .powerLoss s = .next t ∧ t.power = .off ∧
      t = { State.fresh 0 with power := .off, vp := t.vp, pending := s.pending } ∧
      t.vp.wire = none ∧ t.vp.response = none ∧ t.vp.eventSlot = none ∧ t.vp.eventQueue = [] ∧
      ∀ c : Instr, (∀ straps, c ≠ .powerOnReset straps) → exec c t = .next t)

/-! ## Time -/

/-- CABIN_TIME_ADVANCE in CONFIG and RUN: Cabin Time rises by one modulo 2^32, the slot timer falls by one or, from 1, raises a slot
start and is reloaded, and the ticks are raised; nothing else changes. In HOLD nothing changes (R35, R36, R38). That the millisecond
reloads the slot timer, which spec/95 lists under SLOT_START, and that a raised slot start or tick is kept until the command that
takes it, is the model's reading (log entry 30). That it makes no deadline test, and goes on past a reached deadline, is the model's
choice (log entry 43). -/
def Obligations.CabinTimeAdvanceCountsOneMillisecond : Prop :=
  (∀ s : State, s.power = .on → s.mode ≠ .hold →
    exec .cabinTimeAdvance s = .next { s with tb := {
      time := s.tb.time + 1
      slotTimer := if 1 < s.tb.slotTimer then s.tb.slotTimer - 1 else s.tables.globals.slotPeriod
      slotStarts := if 1 < s.tb.slotTimer then s.tb.slotStarts else s.tb.slotStarts + 1
      ticks10 := s.tb.ticks10 ++ if 10 ∣ (s.tb.time + 1).toNat then [s.tb.time + 1] else []
      ticks100 := s.tb.ticks100 ++ if 100 ∣ (s.tb.time + 1).toNat then [s.tb.time + 1] else [] } }) ∧
  ∀ s : State, s.mode = .hold → exec .cabinTimeAdvance s = .next s

/-- SLOT_START, once the samples of the quiet line have been counted. In RUN the walk reads the Poll Schedule Table at the slot
index and moves the index on, modulo the schedule length: a station entry asks for a SAMPLE poll of an ACTIVE station, and counts a
probe for another one or asks for an IDENTIFY poll; an open slot serves the head of the On-Demand Queue. In CONFIG the sweep station
is asked for an IDENTIFY poll, whatever its state, and the sweep moves on, from 8 back to 1. Nothing else changes (R40 to R42, R44);
but an entry to CONFIG that was due waits for the new poll (R169, log entry 26). That the command takes one of the slot starts which
CABIN_TIME_ADVANCE has raised and counted, and leaves the slot timer as it is, is the model's reading (log entry 30; spec/95 lists
the reload under SLOT_START), and so is that the samples come with the command (log entry 10). -/
def Obligations.SlotStartWalksOrSweeps : Prop :=
  (∀ (s : State) (line : Samples), s.power = .on → s.mode = .run → 0 < s.tb.slotStarts → s.lc.poll = none →
      1 ≤ s.tables.globals.scheduleLength → s.tables.globals.scheduleLength ≤ 64 →
      let now := s.lc.clock + line.length
      ∃ i : Fin 64, i.val = (s.ps.slotIndex.val + 1) % s.tables.globals.scheduleLength ∧
        ∃ t, exec (.slotStart line) s = .next t ∧ t.ps.slotIndex = i ∧ t.ps.sweep = s.ps.sweep ∧
          t.tb = { s.tb with slotStarts := s.tb.slotStarts - 1 } ∧
          t = { s with
            tb := t.tb, ps := t.ps, lc := { line.foldl LineController.tick s.lc with poll := t.lc.poll }, sm := t.sm,
            change := if t.lc.poll = none then s.change else s.change.postponed } ∧ t.lc.clock = now ∧
          match s.tables.schedule[s.ps.slotIndex] with
          | some st =>
            t.ps.onDemand = s.ps.onDemand ∧
            if s.sm.nodes[st].state = .active then
              t.lc.poll = some { station := st, kind := .sample, slotStart := now } ∧
              t.sm = { s.sm with nodes := s.sm.nodes.set st { s.sm.nodes[st] with probe := 0 } }
            else if s.tables.globals.probeDivider ≤ s.sm.nodes[st].probe + 1 then
              t.lc.poll = some { station := st, kind := .identify, slotStart := now } ∧
              t.sm = { s.sm with nodes := s.sm.nodes.set st { s.sm.nodes[st] with probe := 0 } }
            else
              t.lc.poll = none ∧
              t.sm = { s.sm with nodes := s.sm.nodes.set st { s.sm.nodes[st] with probe := s.sm.nodes[st].probe + 1 } }
          | none =>
            t.sm = s.sm ∧
            match s.ps.onDemand with
            | [] => t.lc.poll = none ∧ t.ps.onDemand = []
            | st :: rest => t.lc.poll = some { station := st, kind := .identify, slotStart := now } ∧ t.ps.onDemand = rest) ∧
  ∀ (s : State) (line : Samples), s.power = .on → s.mode = .config → 0 < s.tb.slotStarts → s.lc.poll = none →
    ∃ next : Station, next.val = (s.ps.sweep.val + 1) % 8 ∧
      exec (.slotStart line) s = .next { s with
        tb := { s.tb with slotStarts := s.tb.slotStarts - 1 }
        ps := { s.ps with sweep := next }
        change := s.change.postponed
        lc := { line.foldl LineController.tick s.lc with
          poll := some { station := s.ps.sweep, kind := .identify, slotStart := s.lc.clock + line.length } } }

/-- TICK_10MS in RUN advances the flash counter, and with a chime owner the chime counter by the owner's cadence, each from its last
value back to 0 and each unless it was restarted at the tick's own Cabin Time; in CONFIG neither moves. Nothing else changes but the
tick, which is taken (R125, R126, R128). In HOLD the command takes the oldest tick of a step that has settled, once the step's
deadline test has been made, and no counter advances; at any other moment of HOLD nothing changes (R39, R116). That a tick of a step
may be taken by this command, and the deadline test with it, is the model's choice (log entry 13). -/
def Obligations.TenMillisecondTickAdvancesTheCadences : Prop :=
  ∀ (s : State) (v : Time) (rest : List Time), s.power = .on → s.tb.ticks10 = v :: rest →
    (s.mode = .run → exec .tick10ms s = .next { s with
      tb := { s.tb with ticks10 := rest }
      ou := { s.ou with
        flash :=
          if v = s.ou.flashTime then s.ou.flash
          else if s.ou.flash + 1 < s.tables.globals.flashTotal then s.ou.flash + 1 else 0
        chime :=
          match s.ou.owner with
          | none => s.ou.chime
          | some p =>
            if v = s.ou.chimeTime then s.ou.chime
            else if s.ou.chime + 1 < (s.profileOf p).chimeTotal then s.ou.chime + 1 else 0 } }) ∧
    (s.mode = .config → exec .tick10ms s = .next { s with tb := { s.tb with ticks10 := rest } }) ∧
    (∀ req run, s.StepSettled req run → ∃ u, StepDeadlinesTaken s u req run ∧
      exec .tick10ms s = .next { u with tb := { s.tb with ticks10 := rest } }) ∧
    (s.mode = .hold → (∀ req run, ¬ s.StepSettled req run) → exec .tick10ms s = .next s)

/-- TICK_100MS in CONFIG and RUN: the ignition-on counter rises unless the tick lies at or before the ignition-on time; a running
stage timer above 1 falls by one and one at 1 makes its expiry due, unless the tick lies at or before the stage entry time; and the
trigger tests are made with the raised counter. No reminder state, remembered state, deadline or entry time changes, and nothing of
the other blocks (R108, R112, R113). In HOLD the command takes the oldest tick of a step that has settled, once the step's deadline
test has been made (R39, R116), and at any other moment nothing changes; that a tick of a step may be taken by this command is the
model's choice (log entry 13). That the moves are marked as due here, the timer left at 1, and made by rows of their own is the
model's choice (log entry 14), and so is that the marks of the tick before must have been taken (log entry 20), while a reached
deadline need not (log entry 43). -/
def Obligations.HundredMillisecondTickCountsDown : Prop :=
  ∀ (s : State) (v : Time) (rest : List Time), s.power = .on → s.tb.ticks100 = v :: rest →
    (∀ p : Pos, s.ru.records[p].expiring = false ∧ s.ru.records[p].triggered = false) →
    (s.mode ≠ .hold → ∃ t, exec .tick100ms s = .next t ∧ HundredTicked s t v rest) ∧
    (∀ req run, s.StepSettled req run →
      ∃ u t, exec .tick100ms s = .next t ∧ StepDeadlinesTaken s u req run ∧ HundredTicked u t v rest) ∧
    (s.mode = .hold → (∀ req run, ¬ s.StepSettled req run) → exec .tick100ms s = .next s)

/-- STEP_ADVANCE with no step begun begins one: Cabin Time advances by one slot period, meeting exactly one slot start, so that the
slot timer stands as before; TB holds the ticks that the advance met; and PS makes the slot visit that a slot start in RUN would
make (R39, R40). How a STEP is divided into commands is the model's choice (log entry 13). That the samples come with the command is
the model's reading (log entry 10). -/
def Obligations.StepAdvanceBeginsAStep : Prop :=
  ∀ (s : State) (line : Samples) (req : RequestRecord) (count left : Nat) (d : Bool), s.power = .on → s.mode = .hold →
    s.lc.poll = none →
    s.mu.service = some { req, work := .stepping { count, remaining := left + 1, inStep := false, deadlinesTested := d } } →
    1 ≤ s.tb.slotTimer → s.tb.slotTimer ≤ s.tables.globals.slotPeriod →
    ∃ t, exec (.stepAdvance line) s = .next t ∧
      t = { s with tb := t.tb, ps := t.ps, lc := t.lc, sm := t.sm, mu := t.mu } ∧
      t.mu = { s.mu with service := some { req, work := .stepping { count, remaining := left, inStep := true, deadlinesTested := false } } } ∧
      t.tb.time = s.tb.time + BitVec.ofNat 32 s.tables.globals.slotPeriod ∧
      t.tb.slotTimer = s.tb.slotTimer ∧ t.tb.slotStarts = s.tb.slotStarts ∧
      t.tb.ticks10 = s.tb.ticks10 ++ ((List.range s.tables.globals.slotPeriod).map
        fun k => s.tb.time + BitVec.ofNat 32 (k + 1)).filter (fun v => v.toNat % 10 == 0) ∧
      t.tb.ticks100 = s.tb.ticks100 ++ ((List.range s.tables.globals.slotPeriod).map
        fun k => s.tb.time + BitVec.ofNat 32 (k + 1)).filter (fun v => v.toNat % 100 == 0) ∧
      ∀ u : State, exec (.slotStart line) { s with mode := .run, tb := { s.tb with slotStarts := 1 } } = .next u →
        t.ps = u.ps ∧ t.lc = u.lc ∧ t.sm = u.sm

/-- STEP_ADVANCE once the step in progress has settled ends it. The deadline test is made first, unless it was, and what earlier
ticks have marked is taken; then the ticks that the step met are handed out: each 100 ms tick raises the ignition-on counter, counts
the stage timers down and makes the trigger tests, and the moves it makes due are taken at the Cabin Time of the step; the 10 ms
ticks move no cadence counter, which stands or is restarted by a move. Cabin Time stands, and where the test falls here no reached
deadline is left. After the last step MU has the answer OK with the count; after any other the next step begins in the same command,
as a STEP_ADVANCE with no step begun begins one. Before the step has settled nothing changes (R39, R65, R108, R112, R113, R116,
R126, R163). How a STEP is divided into commands is the model's choice (log entry 13). That the samples come with the command is the
model's reading (log entry 10). -/
def Obligations.StepAdvanceEndsTheLastStep : Prop :=
  (∀ (s : State) (line : Samples) (req : RequestRecord) (run : StepRun), s.power = .on → s.StepSettled req run →
    ∃ u t, StepEnded { s with lc := line.foldl LineController.tick s.lc } u req run ∧ exec (.stepAdvance line) s = .next t ∧
      (run.remaining = 0 → t = { u with mu := { s.mu with service := some {
        req, work := .result { status := .ok, data := BitVec.ofNat 16 run.count } } } }) ∧
      (0 < run.remaining → exec (.stepAdvance []) u = .next t)) ∧
  ∀ (s : State) (line : Samples) (req : RequestRecord) (run : StepRun), s.mode = .hold →
    s.mu.service = some { req, work := .stepping run } → run.inStep = true → ¬ s.StepSettled req run →
    exec (.stepAdvance line) s = .next s

/-! ## The reminders -/

/-- PENDING_TRIGGER, for a position in PENDING without a deadline whose trigger test has held: it moves to STAGE_1 with the profile's
stage1 × 10 and the Cabin Time of the moment, OU and VP are told, and no other reminder moves (R112, R113, R122). That a mark which
the test has set earlier is what moves the position, at this command's Cabin Time, is the model's choice (log entry 14). -/
def Obligations.TriggerMovesToStageOne : Prop :=
  ∀ (s : State) (p : Pos), s.power = .on → s.ru.records[p].triggered = true → s.ru.records[p].state = .pending →
    s.ru.records[p].deadline = none →
    ∃ t, exec (.pendingTrigger p) s = .next t ∧
      t = { s with ru := t.ru, ou := t.ou, vp := { s.vp with belt := t.vp.belt } } ∧
      t.ru = { s.ru with records := s.ru.records.set p { state := .stage1, remembered := none, timer := (s.profileOf p).stage1 * 10, deadline := none, entryTime := s.tb.time, expiring := false, triggered := false } } ∧
      t.ou.reminders = s.ou.reminders.set p .stage1 ∧ t.ou.overrides = s.ou.overrides ∧ t.ou.suppA = s.ou.suppA ∧
      t.vp.belt.content = s.vp.belt.content.set p { buckle := s.ru.buckles[p].confirmed, indication := .lamp }

/-- STAGE_EXPIRY, for a position whose expiry a tick has made due: STAGE_1 moves to STAGE_2 with the profile's stage2_max × 10 and
the Cabin Time of the moment, STAGE_2 moves to EXPIRED with the timer at 0; OU and VP are told, and no other reminder moves (R113,
R122). That a mark which an earlier tick has set is what moves the stage, at this command's Cabin Time, is the model's choice (log
entry 14). -/
def Obligations.StageExpiryMovesOn : Prop :=
  ∀ (s : State) (p : Pos), s.power = .on → s.ru.records[p].expiring = true →
    (s.ru.records[p].state = .stage1 → ∃ t, exec (.stageExpiry p) s = .next t ∧
      t = { s with ru := t.ru, ou := t.ou, vp := { s.vp with belt := t.vp.belt } } ∧
      t.ru = { s.ru with records := s.ru.records.set p { state := .stage2, remembered := none, timer := (s.profileOf p).stage2Max * 10, deadline := none, entryTime := s.tb.time, expiring := false, triggered := false } } ∧
      t.ou.reminders = s.ou.reminders.set p .stage2 ∧
      t.vp.belt.content = s.vp.belt.content.set p { buckle := s.ru.buckles[p].confirmed, indication := .lampAndChime }) ∧
    (s.ru.records[p].state = .stage2 → ∃ t, exec (.stageExpiry p) s = .next t ∧
      t = { s with ru := t.ru, ou := t.ou, vp := { s.vp with belt := t.vp.belt } } ∧
      t.ru = { s.ru with records := s.ru.records.set p { state := .expired, remembered := none, timer := 0, deadline := none, entryTime := 0, expiring := false, triggered := false } } ∧
      t.ou.reminders = s.ou.reminders.set p .expired ∧
      t.vp.belt.content = s.vp.belt.content.set p { buckle := s.ru.buckles[p].confirmed, indication := .expired })

/-- GRACE_DEADLINE_REACHED in RUN, or in HOLD in a step that has settled and whose deadline test is still to be made, for a position
in PENDING whose deadline Cabin Time has reached modulo 2^32: it moves to STAGE_2 with the profile's stage2_max × 10 and no
deadline; OU and VP are told, and no other reminder moves. Before the deadline, at any other moment of HOLD, and in CONFIG nothing
happens (R39, R116, R122). That the move waits for this command, and is made at its Cabin Time however long after the deadline, is
the model's choice (log entry 43), as is that it may come within a settled step (log entry 13). -/
def Obligations.ReachedDeadlineMovesToStageTwo : Prop :=
  ∀ (s : State) (p : Pos) (d : Time), s.power = .on → s.ru.records[p].state = .pending → s.ru.records[p].deadline = some d →
    let moment := s.mode = .run ∨ ∃ req run, s.StepSettled req run ∧ run.deadlinesTested = false
    (¬ moment → exec (.graceDeadlineReached p) s = .next s) ∧
    (moment → (s.tb.time - d).toNat < 2 ^ 31 → ∃ t, exec (.graceDeadlineReached p) s = .next t ∧
      t = { s with ru := t.ru, ou := t.ou, vp := { s.vp with belt := t.vp.belt } } ∧
      t.ru = { s.ru with records := s.ru.records.set p { state := .stage2, remembered := none, timer := (s.profileOf p).stage2Max * 10, deadline := none, entryTime := s.tb.time, expiring := false, triggered := false } } ∧
      t.ou.reminders = s.ou.reminders.set p .stage2 ∧
      t.vp.belt.content = s.vp.belt.content.set p { buckle := s.ru.buckles[p].confirmed, indication := .lampAndChime }) ∧
    (2 ^ 31 ≤ (s.tb.time - d).toNat → exec (.graceDeadlineReached p) s = .next s)

/-- POWER_MODE_FRAME: the low two bits of the addressed byte become the power mode, after what the other tests of the frame bring
(log entry 5). Within one ignition pair nothing else changes; when the ignition goes off every reminder becomes INACTIVE and the
ignition-on counter 0; when it comes on the ignition-on time is written, and exactly the INACTIVE positions whose reminder is
applicable leave INACTIVE: to BUCKLED when latched, else to PENDING with its tests made at once. A committed class that CL hands RU
suspends, closes, resumes or opens the position's reminder in the same way, and no other reminder moves (R107, R108, R111, R112,
R116 to R119, R138). -/
def Obligations.PowerModeFrameSwitchesTheIgnition : Prop :=
  (∀ (s : State) (f : CanFrame) (b : Byte), s.power = .on → s.vp.busOff = false →
    f.ident = s.tables.powerInput.ident → f.data[s.tables.powerInput.byteIndex.val]? = some b →
    (exec (.powerModeFrame f) s = .next (State.takePowerMode
      (match s.vp.inputByte s.tables.speedInput f with
        | some v => (s.takeRequest f).takeSpeed v
        | none => s.takeRequest f) (powerModeOf b))) ∧
    (f.ident ≠ s.vp.base → f.ident ≠ s.vp.base + 1 → s.takeRequest f = s) ∧
    (powerModeOf b = .off ↔ b.toNat % 4 = 0) ∧ (powerModeOf b = .accessory ↔ b.toNat % 4 = 1) ∧
    (powerModeOf b = .run ↔ b.toNat % 4 = 2)) ∧
  (∀ (s : State) (m : PowerMode),
    let t := s.takePowerMode m
    t = { s with ru := t.ru, ou := t.ou, vp := { s.vp with powerMode := m, belt := t.vp.belt } } ∧
    t.ru.buckles = s.ru.buckles ∧ (m.ignition = true ↔ m = .run ∨ m = .crank) ∧
    (m.ignition = s.ignitionOn → t = { s with vp := { s.vp with powerMode := m } }) ∧
    (m.ignition = false → s.ignitionOn = true →
      t.ru.ignitionCount = 0 ∧ t.ru.ignitionTime = s.ru.ignitionTime ∧
      ∀ p : Pos, t.ru.records[p] = { state := .inactive, remembered := none, timer := 0, deadline := none, entryTime := 0, expiring := false, triggered := false }) ∧
    (m.ignition = true → s.ignitionOn = false →
      t.ru.ignitionCount = s.ru.ignitionCount ∧ t.ru.ignitionTime = s.tb.time ∧
      ∀ p : Pos,
        let opens := s.ru.records[p].state = .inactive ∧ s.mode ≠ .config ∧ (s.entry p).station.isSome = true ∧
          (s.entry p).applicable = true ∧ s.cl[p].committed.person (s.entry p).childCheck = true
        (opens → s.BecomesApplicable p t.ru.records[p]) ∧ (¬ opens → t.ru.records[p] = s.ru.records[p]))) ∧
  ∀ (s : State) (p : Pos) (old new : Cls),
    let r := s.ru.records[p]
    let t := s.reminderClass p old new
    let u := t.ru.records[p]
    let check := (s.entry p).childCheck
    let escalating := r.state = .pending ∨ r.state = .stage1 ∨ r.state = .stage2 ∨ r.state = .expired
    t = { s with ru := { s.ru with records := t.ru.records }, ou := t.ou, vp := { s.vp with belt := t.vp.belt } } ∧
    (∀ q : Pos, q ≠ p → t.ru.records[q] = s.ru.records[q]) ∧
    (new = .unknown →
      (escalating → u = { state := .suspended, remembered := some r.state, timer := r.timer, deadline := r.deadline }) ∧
      (r.state = .buckled → u = { state := .inactive }) ∧
      (r.state = .inactive ∨ r.state = .suspended → u = r)) ∧
    (new ≠ .unknown → new.person check = false → u = { state := .inactive }) ∧
    (new ≠ .unknown → new.person check = true →
      (r.state = .suspended → s.ru.buckles[p].confirmed = some .latched → u = { state := .buckled }) ∧
      (r.state = .suspended → s.ru.buckles[p].confirmed ≠ some .latched →
        (r.remembered = some .stage1 → u = { r with state := .stage1, remembered := none, entryTime := s.tb.time }) ∧
        (r.remembered = some .stage2 → u = { r with state := .stage2, remembered := none, entryTime := s.tb.time }) ∧
        (r.remembered = some .expired → u = { r with state := .expired, remembered := none }) ∧
        (r.remembered = some .pending → ReminderRecord.PendingTested { r with state := .pending, remembered := none } u
          (s.profileOf p) s.speedReading s.ru.ignitionCount s.tb.time)) ∧
      (r.state ≠ .suspended →
        let opens := r.state = .inactive ∧ old.person check = false ∧ (s.entry p).station.isSome = true ∧
          (s.entry p).applicable = true ∧ s.mode ≠ .config ∧ s.ignitionOn = true
        (opens → s.BecomesApplicable p u) ∧ (¬ opens → u = r)))

/-- A buckle reading that differs from the last one, or equals the confirmed state, is noted and nothing else changes. The second of
two equal readings confirms a change: the capture takes Cabin Time and the speed reading; a latch ends an escalation in BUCKLED; and
an unbuckle from BUCKLED goes to PENDING, at or above speed_on and with retrigger set with the deadline grace × 100 ms after the
capture, or with a grace of 0 at once on to STAGE_2, and otherwise without a deadline and with the trigger test made at once. A latch
in BUCKLED, INACTIVE or SUSPENDED, and a change to OPEN or FAULT that does not come from LATCHED or finds another state than BUCKLED,
move no reminder. No other position's reminder moves (R104, R105, R112, R114 to R116). -/
def Obligations.SecondEqualBuckleReadingConfirms : Prop :=
  ∀ (s : State) (p : Pos) (x : Reading),
    let b := s.ru.buckles[p]
    let r := s.ru.records[p]
    let f := s.profileOf p
    let t := s.buckleReading p x
    (b.last ≠ some x ∨ b.confirmed = some x →
      t = { s with ru := { s.ru with buckles := s.ru.buckles.set p { b with last := some x } } }) ∧
    (b.last = some x → b.confirmed ≠ some x →
      t = { s with ru := t.ru, ou := t.ou, vp := { s.vp with belt := t.vp.belt } } ∧
      t.ru.buckles = s.ru.buckles.set p { last := some x, confirmed := some x, captureTime := s.tb.time, captureSpeed := s.speedReading, captureState := some x } ∧
      (∀ q : Pos, q ≠ p → t.ru.records[q] = s.ru.records[q]) ∧
      (x = .latched → (r.state = .pending ∨ r.state = .stage1 ∨ r.state = .stage2 ∨ r.state = .expired) →
        t.ru.records[p] = { state := .buckled, remembered := none, timer := 0, deadline := none, entryTime := 0, expiring := false, triggered := false }) ∧
      (x = .latched → (r.state = .buckled ∨ r.state = .inactive ∨ r.state = .suspended) → t.ru.records = s.ru.records ∧ t.ou = s.ou) ∧
      (x ≠ .latched → (b.confirmed ≠ some .latched ∨ r.state ≠ .buckled) → t.ru.records = s.ru.records ∧ t.ou = s.ou) ∧
      (x ≠ .latched → b.confirmed = some .latched → r.state = .buckled →
        (f.retrigger = true → f.speedOn ≤ s.speedReading.toNat → f.grace = 0 →
          t.ru.records[p] = { state := .stage2, remembered := none, timer := f.stage2Max * 10, deadline := none, entryTime := s.tb.time, expiring := false, triggered := false }) ∧
        (f.retrigger = true → f.speedOn ≤ s.speedReading.toNat → 1 ≤ f.grace → f.grace ≤ 255 →
          t.ru.records[p] = { state := .pending, remembered := none, timer := 0, deadline := some (s.tb.time + BitVec.ofNat 32 (f.grace * 100)), entryTime := 0, expiring := false, triggered := false }) ∧
        (f.retrigger = false ∨ s.speedReading.toNat < f.speedOn →
          ReminderRecord.PendingTested { state := .pending } t.ru.records[p] f s.speedReading
            s.ru.ignitionCount s.tb.time)))

/-! ## The Seat Line -/

/-- POLL_SEND, once the idle run stands at 80 ticks or more no later than 200 bit times after the slot start: the poll goes out at
that tick with the station's sequence field, which then rises by one modulo 16, and nothing else changes; over a line that stays
high this is the slot start itself, or the tick that brings the idle run to 80. While SENDING, LC drives the bits of SYNC, HOP,
KIND_SEQ and their CRC-8, four ticks each: a start bit at 0, the data bits from the least significant, a stop bit at 1; in every
other phase, and without a poll, it leaves the line alone (R17, R19 to R22). That the samples come with the command is the model's
reading (log entry 10). -/
def Obligations.PollSendCarriesTheSequence : Prop :=
  (∀ (s : State) (line : Samples) (l : LineController) (p : Poll), s.power = .on → s.lc.pass line = some l → l.poll = some p →
    p.phase = .waitIdle → 80 ≤ l.idleRun → l.clock ≤ p.slotStart + 800 →
    exec (.pollSend line) s = .next { s with
      lc := { l with poll := some { p with phase := .sending, sequenceSent := some s.sm.nodes[p.station].sequence, sentAt := l.clock } }
      sm := { s.sm with nodes := s.sm.nodes.set p.station { s.sm.nodes[p.station] with sequence := s.sm.nodes[p.station].sequence + 1 } } }) ∧
  (∀ (l : LineController) (p : Poll), l.poll = some p → p.phase = .waitIdle → l.clock + (80 - l.idleRun) ≤ p.slotStart + 800 →
    ∃ m q, l.pass (List.replicate (80 - l.idleRun) true) = some m ∧ m.clock = l.clock + (80 - l.idleRun) ∧
      m.idleRun = l.idleRun + (80 - l.idleRun) ∧ m.poll = some q ∧ q.phase = .waitIdle ∧ q.slotStart = p.slotStart ∧
      q.station = p.station ∧ q.kind = p.kind) ∧
  (∀ l : LineController, l.poll = none → l.drive = none) ∧
  ∀ (l : LineController) (p : Poll) (q : BitVec 4), l.poll = some p →
    (p.phase ≠ .sending → l.drive = none) ∧
    (p.phase = .sending → p.sequenceSent = some q →
      let hop : Byte := BitVec.ofNat 8 (p.station.val + 1)
      let kindSeq : Byte := (match p.kind with | .sample => (1 : BitVec 4) | .identify => 2) ++ q
      p.frame = [0xB4, hop, kindSeq, crc8 [hop, kindSeq]] ∧
      (∀ (k : Fin 4) (j i : Nat), j < 10 → i < 4 → l.clock = p.sentAt + 40 * k.val + 4 * j + i →
        l.drive = some (if j = 0 then false else if j = 9 then true else (p.frame.getD k.val 0).getLsbD (j - 1))) ∧
      (p.sentAt + 160 ≤ l.clock → l.drive = none))

/-- An exchange that ends without a good reply is a miss of an ACTIVE station and leaves any other station's record alone: LINE_BUSY
at 200 bit times from the slot start, NO_REPLY once the window has closed with no start bit taken and no candidate pending,
REPLY_START_BIT for a 49th byte, and END_OF_FRAME_IDLE and RECEPTION_LIMIT where the expected length is known or fewer than 6 bytes
are stored; an open reply of 6 bytes or more that these two end is checked as a frame. A candidate that is pending when the window
closes is settled by its own confirming sample (R8, R9, R20, R24, R27, R31). That an idle run which ends on the tick of the limit
still ends the reply as idle is the model's choice (log entry 11). That the samples come with the command is the model's reading
(log entry 10). -/
def Obligations.FailedExchangesCountMisses : Prop :=
  (∀ (s : State) (line : Samples) (l : LineController) (p : Poll), s.power = .on → s.lc.pass line = some l → l.poll = some p →
    let ended := fun c : Instr => ∃ t, exec c s = .next t ∧ ExchangeFailed s { l with poll := none } t p.station
    let short := l.buffer.length < 6 ∨ (expectedLength l.buffer).isSome = true
    let checked := fun c : Instr => exec c s = .next (State.takeOutcome { s with lc := { l with poll := none } } p.station p.kind
      (p.latency.getD 0) (frameOutcome p l.buffer))
    (p.phase = .waitIdle → p.slotStart + 800 ≤ l.clock → l.idleRun < 80 → ended (.lineBusy line)) ∧
    (p.phase = .listening → l.candidate = none → p.pollEnd + 401 ≤ l.clock → ended (.noReply line)) ∧
    (p.phase = .receiving → p.byteStart = none → l.candidate = none → 120 ≤ l.idleRun →
      (short → ended (.endOfFrameIdle line)) ∧ (¬ short → checked (.endOfFrameIdle line))) ∧
    (p.phase = .receiving → p.pollEnd + 2801 ≤ l.clock →
      (∃ b, p.byteStart = some b ∧ l.clock ≤ b + 38) ∨
        (p.byteStart = none ∧ l.idleRun < 120 ∧ ∀ c, l.candidate = some c → l.clock < c + 3) →
      (short → ended (.receptionLimit line)) ∧ (¬ short → checked (.receptionLimit line))) ∧
    (p.phase = .receiving → p.byteStart = none → (∃ c, l.candidate = some c ∧ c + 3 ≤ l.clock) → l.buffer.length = 48 →
      ∃ t, exec (.replyStartBit line) s = .next t ∧
        ExchangeFailed s { l with candidate := none, poll := none } t p.station)) ∧
  ∀ (l : LineController) (p : Poll) (c : Nat) (line : Samples), l.poll = some p → p.phase = .listening → l.candidate = some c →
    l.clock ≤ c + 2 → p.pollEnd + 401 ≤ c + 3 → line.length = c + 3 - l.clock →
    ∃ m, l.pass line = some m ∧ m.clock = c + 3 ∧ m.candidate = if line.getLast? = some true then none else some c

/-- POLL_END, when the four bytes have gone out, whatever LC samples meanwhile: the receive buffer is emptied and the reply window
opens, and nothing else changes but the line's measures (R21, R24). That the samples come with the command is the model's reading
(log entry 10). -/
def Obligations.PollEndOpensTheReplyWindow : Prop :=
  ∀ (s : State) (p : Poll) (line : Samples), s.power = .on → s.lc.poll = some p → p.phase = .sending →
    s.lc.clock + line.length = p.sentAt + 160 →
    let l := line.foldl LineController.tick s.lc
    ∃ q, l.poll = some q ∧ q = { p with windowFresh := q.windowFresh, byte := q.byte } ∧ l.clock = p.sentAt + 160 ∧
      exec (.pollEnd line) s = .next { s with lc := { l with
        candidate := none
        buffer := []
        poll := some { q with phase := .listening, pollEnd := p.sentAt + 160, windowFresh := true, byteStart := none, latency := none } } }

/-- REPLY_START_BIT, when a candidate start bit is confirmed. In an open window it gives the latency, the ticks from the poll end to
the first low sample, and reception begins; while a reply is received it begins the next byte; nothing but the line changes. In a
window that no low sample has met, `h` ticks sampled high and then a low one make a candidate of latency `h`, up to 400; the sample
two ticks later confirms it when low and rejects it when high, and LC goes on looking (R18, R24, R25). That a start bit of a reply
which is confirmed on the very tick of the reception limit, 2800, still begins a byte is the model's choice (log entry 11). That the
samples come with the command is the model's reading (log entry 10). -/
def Obligations.StartBitGivesTheLatency : Prop :=
  (∀ (s : State) (line : Samples) (l : LineController) (p : Poll) (c : Nat), s.power = .on → s.lc.pass line = some l →
    l.poll = some p → l.candidate = some c → c + 3 ≤ l.clock →
    (p.phase = .listening → exec (.replyStartBit line) s = .next { s with lc := { l with
      candidate := none
      poll := some { p with
        phase := .receiving, latency := some (c - p.pollEnd), byteStart := some c, byte := 0, windowFresh := false } } }) ∧
    (p.phase = .receiving → p.byteStart = none → l.buffer.length < 48 → exec (.replyStartBit line) s = .next { s with lc := { l with
      candidate := none
      poll := some { p with byteStart := some c, byte := 0, windowFresh := false } } })) ∧
  ∀ (l : LineController) (p : Poll) (h : Nat) (x y : Bool), l.poll = some p → p.phase = .listening → p.windowFresh = true →
    l.candidate = none → l.clock = p.pollEnd → h ≤ 400 →
    ∃ m q, l.pass (List.replicate h true ++ [false, x, y]) = some m ∧ m.clock = p.pollEnd + h + 3 ∧
      m.candidate = (if y then none else some (p.pollEnd + h)) ∧ m.buffer = l.buffer ∧
      m.poll = some q ∧ q = { p with windowFresh := false, byte := q.byte }

/-- LC reads a byte from the samples 6, 10, … 34 ticks after the first low one of its start bit, the least significant bit first,
and its stop bit from the sample at 38 ticks. REPLY_BYTE_READ: a well-framed byte that does not complete the reply is stored at the
next buffer place, and nothing but the line changes. A stop bit read as 0, or a byte 0 other than SYNC, ends the exchange as FRAMING
(R17, R25, R26). That the badly framed byte is not stored is the model's choice (log entry 36), and so are that it may come under
either row (log entry 17), that a stop bit on the tick of the limit is still read (log entry 11), and that a stop bit which a
LINE_LOW_SAMPLE has brought is taken by a command that brings no further sample (log entry 44). That the samples come with the
command is the model's reading (log entry 10). -/
def Obligations.ReplyBytesAreStored : Prop :=
  (∀ (l : LineController) (p : Poll) (start : Nat) (line : Samples), l.poll = some p → p.phase = .receiving →
    p.byteStart = some start → l.clock ≤ start + 6 → start + 38 ≤ p.pollEnd + 2800 → l.clock + line.length = start + 39 →
    ∃ m q, l.pass line = some m ∧ m.clock = start + 39 ∧ m.buffer = l.buffer ∧ m.poll = some q ∧
      q = { p with windowFresh := q.windowFresh, byte := q.byte } ∧
      (∀ k : Nat, k < 8 → line.getD (start + 6 + 4 * k - l.clock) false = q.byte.getLsbD k) ∧
      (0 < m.idleRun ↔ line.getLast? = some true)) ∧
  ∀ (s : State) (line : Samples) (stop : Bool) (l : LineController) (p : Poll) (start : Nat), s.power = .on →
    StopBitSampled s line stop l → l.poll = some p → p.phase = .receiving → p.byteStart = some start → l.clock = start + 39 →
    (0 < l.idleRun → (l.buffer = [] → p.byte = 0xB4) → expectedLength (l.buffer ++ [p.byte]) ≠ some (l.buffer.length + 1) →
      exec (.replyByteRead line stop) s = .next { s with lc := { l with
        buffer := l.buffer ++ [p.byte], poll := some { p with byteStart := none } } }) ∧
    (l.idleRun = 0 ∨ l.buffer = [] ∧ p.byte ≠ 0xB4 →
      (∃ t, exec (.replyByteRead line stop) s = .next t ∧ ExchangeFailed s { l with poll := none } t p.station) ∧
      ∃ t, exec (.replyReceived line stop) s = .next t ∧ ExchangeFailed s { l with poll := none } t p.station)

/-- REPLY_RECEIVED with the byte that brings the reply to its expected length: the poll ends and SM takes the outcome of the checks
(R26, R31). A GOOD IDENTIFY makes a station that is not ACTIVE ACTIVE, with the reply's node id and place count, its calibration
looked up, its positions' place check and DEFAULT_CAL made, and exactly these events queued in turn: its own, CAL_MISSING where no
entry names the node, and a PLACE_MISSING for each routed position at or above the place count; for an ACTIVE station it confirms
the record or is a seat change. A GOOD SAMPLE is delivered, is a miss where the place count differs, and is a seat change where the
node id does; for a station that is not ACTIVE it changes nothing. No other station's record changes, and nothing of the store, the
reminders and the outputs at an activation (R5 to R9, R12, R13, R26, R31, R144). That a stop bit on the tick of the limit is still
read is the model's choice (log entry 11), and so is that the command may name a stop bit which LC has sampled already (log entry
44). That the samples come with the command is the model's reading (log entry 10). -/
def Obligations.GoodIdentifyActivatesTheStation : Prop :=
  (∀ (s : State) (line : Samples) (stop : Bool) (l : LineController) (p : Poll) (start : Nat), s.power = .on →
    StopBitSampled s line stop l → l.poll = some p → p.phase = .receiving → p.byteStart = some start → l.clock = start + 39 →
    0 < l.idleRun → (l.buffer = [] → p.byte = 0xB4) → expectedLength (l.buffer ++ [p.byte]) = some (l.buffer.length + 1) →
    exec (.replyReceived line stop) s = .next (State.takeOutcome
      { s with lc := { l with buffer := l.buffer ++ [p.byte], poll := none } } p.station p.kind (p.latency.getD 0)
      (frameOutcome p (l.buffer ++ [p.byte])))) ∧
  ∀ (s : State) (st : Station) (latency places : Nat) (node : Byte) (samples : List PlaceSample),
    let n := s.sm.nodes[st]
    let good := ReplyOutcome.good node places samples
    let confirmed := { s with sm := { s.sm with nodes := s.sm.nodes.set st { n with misses := 0, latency := latency, hopReported := false } } }
    (n.state ≠ .active →
      let t := s.takeOutcome st .identify latency good
      t = { s with sm := t.sm, cl := t.cl, vp := t.vp } ∧
      t.sm = { s.sm with nodes := s.sm.nodes.set st { n with
        state := .active, nodeId := node, places := places, misses := 0, latency := latency, hopReported := false,
        calIndex := s.tables.findCalibration node } } ∧
      (let number : Byte := BitVec.ofNat 8 (st.val + 1)
       let queued := fun first : EventRecord => EventsQueued s.vp t.vp
         ([first] ++ calMissingEvents s st node ++ placeMissingEvents s (s.routedPlace st) places)
       (n.state = .absent → queued (eventOf s .stationFound number node (BitVec.ofNat 8 places))) ∧
       (n.state = .linkLost → n.nodeId = node → queued (eventOf s .linkRestored number node 0)) ∧
       (n.state = .linkLost → n.nodeId ≠ node → queued (eventOf s .seatChanged number n.nodeId node))) ∧
      (∀ q : Pos, t.cl[q] = { s.cl[q] with quality := t.cl[q].quality } ∧
        match s.routedPlace st q with
        | some k => t.cl[q].quality = { s.cl[q].quality with
            linkDown := decide (places ≤ k.val), defaultCal := (s.tables.findCalibration node).isNone }
        | none => t.cl[q].quality = s.cl[q].quality)) ∧
    (n.state ≠ .active → s.takeOutcome st .sample latency good = s) ∧
    (n.state = .active →
      (n.nodeId = node → n.places = places → s.takeOutcome st .identify latency good = confirmed ∧
        s.takeOutcome st .sample latency good = confirmed.deliverSamples st samples) ∧
      (n.nodeId = node → n.places ≠ places → s.takeOutcome st .identify latency good = s.seatChange st node places latency ∧
        s.takeOutcome st .sample latency good =
          State.miss { s with sm := { s.sm with nodes := s.sm.nodes.set st { n with latency := latency, hopReported := false } } } st) ∧
      (n.nodeId ≠ node → s.takeOutcome st .identify latency good = s.seatChange st node places latency ∧
        s.takeOutcome st .sample latency good = s.seatChange st node places latency)) ∧
    ∀ (p : Pos) (k : Place), s.routedPlace st p = some k →
      (n.places ≤ k.val → EventGoesOut s (s.checkPlace st p) .placeMissing (BitVec.ofNat 8 p.val) (BitVec.ofNat 8 n.places) 0)

/-- LINE_LOW_SAMPLE: the samples are counted and, as the last is low, the idle run becomes 0; with no poll in flight the bytes on
the line are discarded, and nothing but the line's measures changes. One sample moves the count on and the idle run up by one or
back to 0; a low one that follows a high one, or is the first low one of a window, begins a candidate outside a byte, and the sample
two ticks later rejects it when high and confirms it, where a reply is awaited or received, when low (R18, R24, R33). That a low
sample which is the stop bit of a byte leaves FRAMING to the byte's own row is the model's choice (log entry 44). That the samples
come with the command is the model's reading (log entry 10). -/
def Obligations.LowSampleClearsTheIdleRun : Prop :=
  (∀ (s : State) (line : Samples), s.power = .on → s.lc.poll = none →
    ∃ l, exec (.lineLowSample (line ++ [false])) s = .next { s with lc := l } ∧
      l.idleRun = 0 ∧ l.clock = s.lc.clock + line.length + 1 ∧ l.poll = none ∧ l.buffer = s.lc.buffer) ∧
  (∀ (s : State) (line : Samples) (l : LineController), s.power = .on → s.lc.pass (line ++ [false]) = some l →
    exec (.lineLowSample (line ++ [false])) s = .next { s with lc := l }) ∧
  (∀ (l : LineController) (line : Samples) (n : Nat),
    ((line ++ [false] ++ List.replicate n true).foldl LineController.tick l).idleRun = n ∧
    ((List.replicate n true).foldl LineController.tick l).idleRun = l.idleRun + n) ∧
  ∀ (l : LineController) (b : Bool),
    let awaited := ∃ p, l.poll = some p ∧ (p.phase = .listening ∨ p.phase = .receiving)
    let inByte := ∃ p c, l.poll = some p ∧ p.phase = .receiving ∧ p.byteStart = some c
    let firstLow := ∃ p, l.poll = some p ∧ p.phase = .listening ∧ p.windowFresh = true
    let m := l.tick b
    m.clock = l.clock + 1 ∧ m.buffer = l.buffer ∧
    (l.candidate = none → b = false → ¬ inByte → (0 < l.idleRun ∨ firstLow) → m.candidate = some l.clock) ∧
    (l.candidate = none → (b = true ∨ inByte ∨ l.idleRun = 0 ∧ ¬ firstLow) → m.candidate = none) ∧
    (∀ c, l.candidate = some c →
      (l.clock < c + 2 → m.candidate = some c) ∧
      (c + 2 ≤ l.clock → b = true → m.candidate = none) ∧
      (c + 2 ≤ l.clock → b = false → (awaited → m.candidate = some c) ∧ (¬ awaited → m.candidate = none)))

/-- Every outcome of an ACTIVE station other than GOOD is a miss, whatever its kind, NO_REPLY at the close of the window among them;
a HOP_MISMATCH first writes the latency and is reported once. A miss below the retry limit raises the miss count and changes nothing
else; one that reaches the limit loses the link; and a GOOD reply with another node is a seat change. A link loss and a seat change
flush each position routed to the station, with its buckle put back to UNKNOWN and an escalating reminder suspended, and leave every
other position as it is: a flushed position that waits for an evaluation leaves the Evaluation Queue, the others in their order, and
one under evaluation keeps its flags. A link loss makes the station LINK_LOST and sets LINK_DOWN; a seat change takes the new node,
looks up its calibration, makes the place check and queues SEAT_CHANGED, CAL_MISSING where no entry names the node, and a
PLACE_MISSING for each position at or above the place count, and no other event (R8, R10 to R14, R62, R93, R106, R118, R144). That
the samples come with the command is the model's reading (log entry 10). -/
def Obligations.LinkLossFlushesItsPositions : Prop :=
  (∀ (s : State) (line : Samples) (l : LineController) (p : Poll), s.power = .on → s.lc.pass line = some l → l.poll = some p →
    p.phase = .listening → l.candidate = none → p.pollEnd + 401 ≤ l.clock → s.sm.nodes[p.station].state = .active →
    exec (.noReply line) s = .next (State.miss { s with lc := { l with poll := none } } p.station)) ∧
  (∀ (s : State) (st : Station) (kind : PollKind) (latency : Nat) (o : ReplyOutcome), s.sm.nodes[st].state = .active →
    (∀ node places samples, o ≠ .good node places samples) →
    (o ≠ .hopMismatch → s.takeOutcome st kind latency o = s.miss st) ∧
    (o = .hopMismatch → ∃ u, s.takeOutcome st kind latency o = u.miss st ∧
      u = { s with
        sm := { s.sm with nodes := s.sm.nodes.set st { s.sm.nodes[st] with latency := latency, hopReported := true } }
        vp := { s.vp with eventSlot := u.vp.eventSlot, eventQueue := u.vp.eventQueue } } ∧
      (s.sm.nodes[st].hopReported = true → u.vp = s.vp) ∧
      (s.sm.nodes[st].hopReported = false →
        EventGoesOut s u .hopMismatch (BitVec.ofNat 8 (st.val + 1)) (BitVec.ofNat 8 latency) (BitVec.ofNat 8 (latency / 256))))) ∧
  (∀ (s : State) (st : Station),
    let t := s.miss st
    let n := { s.sm.nodes[st] with misses := min (s.sm.nodes[st].misses + 1) 15 }
    (n.misses < s.tables.globals.retryLimit → t = { s with sm := { s.sm with nodes := s.sm.nodes.set st n } }) ∧
    (s.tables.globals.retryLimit ≤ n.misses →
      t = { s with sm := t.sm, ss := t.ss, cl := t.cl, ru := t.ru, ou := t.ou, vp := t.vp } ∧
      t.sm = { s.sm with nodes := s.sm.nodes.set st { n with state := .linkLost } } ∧
      EventGoesOut s t .linkLost (BitVec.ofNat 8 (st.val + 1)) 0 0 ∧ QueueFlushed s.ss t.ss (fun q => (s.routedPlace st q).isSome) ∧
      ∀ q : Pos,
        if (s.routedPlace st q).isSome then
          FlushedFor s t q ∧ t.cl[q].quality = { s.cl[q].quality with rough := false, linkDown := true }
        else Untouched s t q)) ∧
  ∀ (s : State) (st : Station) (node : Byte) (places latency : Nat),
    let t := s.seatChange st node places latency
    t = { s with sm := t.sm, ss := t.ss, cl := t.cl, ru := t.ru, ou := t.ou, vp := t.vp } ∧
    t.sm = { s.sm with nodes := s.sm.nodes.set st { s.sm.nodes[st] with
      nodeId := node, places := places, misses := 0, latency := latency, hopReported := false,
      calIndex := s.tables.findCalibration node } } ∧
    EventsQueued s.vp t.vp ([eventOf s .seatChanged (BitVec.ofNat 8 (st.val + 1)) s.sm.nodes[st].nodeId node] ++
      calMissingEvents s st node ++ placeMissingEvents s (s.routedPlace st) places) ∧
    QueueFlushed s.ss t.ss (fun q => (s.routedPlace st q).isSome) ∧
    ∀ q : Pos,
      match s.routedPlace st q with
      | some k => FlushedFor s t q ∧ t.cl[q].quality = { s.cl[q].quality with
          rough := false, linkDown := decide (places ≤ k.val), defaultCal := (s.tables.findCalibration node).isNone }
      | none => Untouched s t q

/-! ## The Sample Store and the evaluations -/

/-- The arrival of a place sample. With room, the free-list head takes the sample and the Cabin Time and becomes the chain's tail;
at the chain cap the oldest bucket of a chain that is not under evaluation makes room; a sample that finds no room is dropped, with
the loss noted, its event queued unless SAMPLE_LOSS was set already, and the buckets untouched. Other chains keep still. The samples
of a good reply arrive in place order, each at the position that the routing names for its place and nowhere else, and each reaches
RU as a buckle reading (R7, R50, R52 to R54, R144). -/
def Obligations.ArrivalStoresOrDropsTheSample : Prop :=
  (∀ (s : State) (p : Pos) (x : PlaceSample), StoreSound s →
    let c := s.ss.chains[p]
    let t := s.arrive p x
    (∀ q : Pos, q ≠ p → t.ss.chains[q] = s.ss.chains[q]) ∧
    (c.len ≠ s.tables.globals.chainCap → s.ss.freeLen ≠ 0 →
      t.ss.chains[p].len = c.len + 1 ∧ t.ss.freeLen = s.ss.freeLen - 1 ∧ t.ss.chains[p].tail = s.ss.freeHead ∧
      t.ss.freeHead = s.ss.buckets[s.ss.freeHead].next ∧
      t.ss.buckets[s.ss.freeHead].sample = x ∧ t.ss.buckets[s.ss.freeHead].time = s.tb.time ∧
      t.ss.chains[p].loss = c.loss ∧ t.cl = s.cl ∧ t.vp = s.vp) ∧
    (c.len = s.tables.globals.chainCap → c.underEval = false →
      t.ss.chains[p].len = c.len ∧ t.ss.freeLen = s.ss.freeLen ∧ t.ss.chains[p].tail = c.head ∧
      t.ss.chains[p].head = s.ss.buckets[c.head].next ∧
      t.ss.buckets[c.head].sample = x ∧ t.ss.buckets[c.head].time = s.tb.time ∧ t.ss.chains[p].loss = c.loss ∧ t.cl = s.cl ∧ t.vp = s.vp) ∧
    (c.len = s.tables.globals.chainCap ∧ c.underEval = true ∨ c.len ≠ s.tables.globals.chainCap ∧ s.ss.freeLen = 0 →
      t.ss.chains[p].len = c.len ∧ t.ss.freeLen = s.ss.freeLen ∧ t.ss.buckets = s.ss.buckets ∧
      t.ss.chains[p].loss = true ∧ t.cl[p].quality.sampleLoss = true ∧
      (s.cl[p].quality.sampleLoss = false → EventGoesOut s t .sampleLoss (BitVec.ofNat 8 p.val) 0 0) ∧
      (s.cl[p].quality.sampleLoss = true → t.vp = s.vp)) ∧
    t.ss.evalQueue =
      (if (s.bankInForce p).w ≤ t.ss.chains[p].len ∧ c.scheduled = false then s.ss.evalQueue ++ [p] else s.ss.evalQueue)) ∧
  ∀ (s : State) (st : Station) (a b c d : PlaceSample),
    let give := fun (u : State) (k : Place) (x : PlaceSample) =>
      match s.sm.routing[st][k] with
      | some p => (u.arrive p x).buckleReading p x.buckle
      | none => u
    s.deliverSamples st [a] = give s 0 a ∧ s.deliverSamples st [a, b] = give (give s 0 a) 1 b ∧
    s.deliverSamples st [a, b, c] = give (give (give s 0 a) 1 b) 2 c ∧
    s.deliverSamples st [a, b, c, d] = give (give (give (give s 0 a) 1 b) 2 c) 3 d ∧
    (∀ q : Pos, (∀ k : Place, s.sm.routing[st][k] ≠ some q) → Untouched s (s.deliverSamples st [a, b, c, d]) q)

/-- EVALUATION_START in RUN, or in HOLD in the evaluation phase of a STEP, takes the Evaluation Queue from its head: each stale entry
is dropped with its scheduled flag cleared, and the first position with a full window starts an evaluation that captures the epoch,
the bank in force and the calibration of the position's place. No chain and no bucket changes otherwise, and nothing of the other
blocks. It starts none in CONFIG, none beside an evaluation in flight (R57, R67 to R69), and none where an entry to CONFIG is due
(log entry 26). That the start waits for this command, while other commands go on past an evaluation that could start, is the model's
choice (log entry 45). -/
def Obligations.EvaluationStartCapturesOrDrops : Prop :=
  (∀ (s : State) (stale rest : List Pos), s.power = .on → s.we = none → s.change ≠ .configWaiting true →
    (s.mode = .run ∨ s.mode = .hold ∧ s.lc.poll = none ∧ ∃ req count left,
      s.mu.service = some { req, work := .stepping { count, remaining := left, inStep := true, deadlinesTested := false } }) →
    s.ss.evalQueue = stale ++ rest → (∀ q ∈ stale, s.ss.chains[q].len < (s.bankInForce q).w) →
    (rest = [] → s.ss.evalQueue ≠ [] → ∃ t, exec .evaluationStart s = .next t ∧
      t = { s with ss := { s.ss with evalQueue := [], chains := t.ss.chains } } ∧
      ∀ q : Pos, t.ss.chains[q] = if q ∈ stale then { s.ss.chains[q] with scheduled := false } else s.ss.chains[q]) ∧
    ∀ (p : Pos) (behind : List Pos), rest = p :: behind → (s.bankInForce p).w ≤ s.ss.chains[p].len →
      ∃ t e, exec .evaluationStart s = .next t ∧
        t = { s with we := some e, ss := { s.ss with evalQueue := behind, chains := t.ss.chains } } ∧
        (∀ q : Pos, t.ss.chains[q] =
          if q = p then { s.ss.chains[q] with underEval := true }
          else if q ∈ stale then { s.ss.chains[q] with scheduled := false } else s.ss.chains[q]) ∧
        e.pos = p ∧ e.epoch = s.ss.chains[p].epoch ∧ e.bank = s.bankInForce p ∧
        ∀ c : Fin 6,
          match s.calibrationOf p with
          | some k =>
            e.offsets[c] = (s.tables.calibration[k].offsets.toList.getD (6 * (s.entry p).place.val + c.val) 0) ∧
            e.gains[c] = (s.tables.calibration[k].gains.toList.getD (6 * (s.entry p).place.val + c.val) 0)
          | none => e.offsets[c] = 0 ∧ e.gains[c] = 64) ∧
  ∀ s : State, (s.mode = .config ∨ s.we.isSome = true ∨ s.ss.evalQueue = [] ∨ s.change = .configWaiting true) →
    exec .evaluationStart s = .next s

/-- EVALUATION_COMPLETION of an evaluation whose epoch is no longer the position's: the result is discarded. CL receives nothing, no
bucket is returned, the loss flags stay, both evaluation flags are cleared, and the position is queued again when its chain holds W
samples (R60, R61). What becomes of a change in progress is not said here. -/
def Obligations.StaleEvaluationIsDiscarded : Prop :=
  ∀ (s : State) (e : Evaluation), s.power = .on → s.we = some e → s.change ≠ .resetSettling →
    s.ss.chains[e.pos].epoch ≠ e.epoch →
    ∃ change, exec .evaluationCompletion s = .next { s with
      we := none
      change := change
      ss := { s.ss with
        chains := s.ss.chains.set e.pos { s.ss.chains[e.pos] with
          underEval := false, scheduled := decide ((s.bankInForce e.pos).w ≤ s.ss.chains[e.pos].len) }
        evalQueue :=
          if (s.bankInForce e.pos).w ≤ s.ss.chains[e.pos].len then s.ss.evalQueue ++ [e.pos] else s.ss.evalQueue } }

/-- EVALUATION_COMPLETION of a valid evaluation. The window's figures and the raw class, decided against the effective thresholds,
are recorded. A clean window of the committed class clears the candidate; from UNKNOWN it commits at once; otherwise it counts for
the candidate, and commits at C, for C 1, or for CHILD_SEAT_REAR; a disturbed one counts in the disturbed run and commits nothing;
ROUGH follows that run. H buckets or the whole chain are returned, the loss flags are settled, and the position is queued again when
W samples remain. The suppression state follows the class and RU is handed a new one. No other position's class record, chain or
reminder changes (R59, R61, R85 to R91, R94). The thresholds beside NOT_CONFIGURED, which R85 leaves out, are the model's choice
(log entry 31). -/
def Obligations.ValidEvaluationIsClassified : Prop :=
  ∀ (s : State) (e : Evaluation), s.power = .on → s.we = some e → s.change ≠ .resetSettling →
    s.ss.chains[e.pos].epoch = e.epoch → SuppressionFollowsClass s →
    let w := windowResult (s.ss.samplesFrom s.ss.chains[e.pos].head e.bank.w) e
    let r := s.cl[e.pos]
    let raw := match w.tag with
      | some .rearward => Cls.childSeatRear
      | some .forward => Cls.childSeatFwd
      | none =>
        if w.lbar < objBoundary e.bank r.committed then Cls.empty
        else if w.fmin < e.bank.fPerson then Cls.object
        else if w.lbar < adultBoundary e.bank r.committed then Cls.smallOccupant
        else Cls.adult
    ∃ t, exec .evaluationCompletion s = .next t ∧
      t = { s with we := none, change := t.change, ss := t.ss, cl := t.cl, ru := t.ru, ou := t.ou, vp := t.vp } ∧
      t.cl[e.pos].lastL = w.lbar ∧ t.cl[e.pos].lastD = w.spread ∧ t.cl[e.pos].lastF = w.fmin ∧ t.cl[e.pos].lastRaw = raw ∧
      t.cl[e.pos].supp = t.cl[e.pos].committed.suppression ∧
      (w.disturbed = true → t.cl[e.pos].committed = r.committed ∧ t.cl[e.pos].candidate = r.candidate ∧
        t.cl[e.pos].confirm = r.confirm ∧ t.cl[e.pos].disturbedRun = min (r.disturbedRun + 1) 15) ∧
      (w.disturbed = false → t.cl[e.pos].disturbedRun = 0 ∧
        (t.cl[e.pos].committed, t.cl[e.pos].candidate, t.cl[e.pos].confirm) = afterCleanWindow r raw e.bank.c) ∧
      t.cl[e.pos].quality = { r.quality with
        rough := decide (s.tables.globals.roughLimit ≤ t.cl[e.pos].disturbedRun)
        sampleLoss := r.quality.sampleLoss && s.ss.chains[e.pos].loss } ∧
      (let left := s.ss.chains[e.pos].len - e.bank.h;
        t.ss.chains[e.pos].len = left ∧ t.ss.chains[e.pos].underEval = false ∧ t.ss.chains[e.pos].loss = false ∧
        t.ss.chains[e.pos].epoch = e.epoch ∧ t.ss.chains[e.pos].scheduled = decide ((s.bankInForce e.pos).w ≤ left) ∧
        t.ss.evalQueue = if (s.bankInForce e.pos).w ≤ left then s.ss.evalQueue ++ [e.pos] else s.ss.evalQueue) ∧
      t.ru = (if t.cl[e.pos].committed = r.committed then s.ru
        else (s.reminderClass e.pos r.committed t.cl[e.pos].committed).ru) ∧
      ∀ q : Pos, q ≠ e.pos → t.cl[q] = s.cl[q] ∧ t.ss.chains[q] = s.ss.chains[q] ∧ t.ru.records[q] = s.ru.records[q]

/-- The net value of a cell is its raw value less its offset when the raw value is above the offset, and 0 otherwise; an offset of 0
leaves the raw value, and one of 1023 makes the net value 0 (R72). That a net value of 0 counts toward the footprint where cell_on
is 0, as R74 and R81 say and R72 does not, is log entry 16. -/
def Obligations.NetValueIsTheRawValueAboveItsOffset : Prop :=
  ∀ (x : PlaceSample) (e : Evaluation) (c : Fin 6),
    netValue x e c = (if e.offsets[c] < x.cells[c] then x.cells[c] - e.offsets[c] else 0) ∧
    (x.cells[c] ≤ 1023 → netValue x e c ≤ 1023) ∧ (e.offsets[c] = 0 → netValue x e c = x.cells[c]) ∧
    (x.cells[c] ≤ 1023 → e.offsets[c] = 1023 → netValue x e c = 0)

/-- The footprint of a sample is the number of its cells whose net value is at or above cell_on (R74); that under cell_on 0 every
cell counts, also one at or below its offset, as R74 and R81 say and R72 does not, is the model's choice (log entry 16). -/
def Obligations.FootprintCountsTheCellsAtOrAboveCellOn : Prop :=
  ∀ (x : PlaceSample) (e : Evaluation),
    footprint x e = (Finset.univ.filter fun c : Fin 6 => e.bank.cellOn ≤ netValue x e c).card ∧ footprint x e ≤ 6 ∧
    (e.bank.cellOn = 0 → footprint x e = 6) ∧
    ((∀ c : Fin 6, x.cells[c] ≤ 1023) → e.bank.cellOn = 1023 →
      footprint x e = (Finset.univ.filter fun c : Fin 6 => x.cells[c] = 1023 ∧ e.offsets[c] = 0).card) ∧
    ∀ gains, footprint x { e with gains := gains } = footprint x e

/-- The mean load is ⌊(ΣL + ⌊W/2⌋) / W⌋: the exact mean rounded to the nearest integer, a half upward, and never above the largest
sample load nor below the smallest; for an odd W the exact mean never ends in a half (R75). The spread is the largest sample load
less the smallest, and 0 among samples that all exceed the clamp; the footprint minimum is the smallest footprint of the window
(R76). The window's mean load is that of the sample loads: each is the weighted sum of the six net values over 64, at most 16383
(R73). The window is disturbed when at least half of its W samples are flagged, or its spread exceeds D_max (R77). It has a tag when
more than half of them read one, FORWARD when more than half of these read FORWARD, and else REARWARD (R78, R79). The window's
samples are those of the oldest W buckets of the chain, from its head (R70). -/
def Obligations.WindowFiguresAreMeanSpreadAndMinimum : Prop :=
  (∀ (loads : List Nat) (w : Nat), loads.length = w → 2 ≤ w →
      meanLoad loads w = (loads.sum + w / 2) / w ∧
      ((∀ l ∈ loads, l ≤ 16383) → w ≤ 16 → loads.sum ≤ 262128 ∧ meanLoad loads w ≤ 16383) ∧
      2 * loads.sum < w * (2 * meanLoad loads w + 1) ∧ w * (2 * meanLoad loads w) ≤ 2 * loads.sum + w ∧
      (w % 2 = 1 → ∀ k, 2 * loads.sum ≠ w * (2 * k + 1)) ∧
      (∀ m, (∀ l ∈ loads, l ≤ m) → meanLoad loads w ≤ m) ∧ (∀ m, (∀ l ∈ loads, m ≤ l) → m ≤ meanLoad loads w)) ∧
  (∀ (window : List PlaceSample) (e : Evaluation), window ≠ [] →
    let r := windowResult window e
    (∃ a ∈ window, ∃ b ∈ window, r.spread = sampleLoad a e - sampleLoad b e ∧
      ∀ x ∈ window, sampleLoad x e ≤ sampleLoad a e ∧ sampleLoad b e ≤ sampleLoad x e) ∧
    (∃ a ∈ window, r.fmin = footprint a e ∧ ∀ x ∈ window, footprint a e ≤ footprint x e) ∧
    r.spread ≤ 16383 ∧ r.fmin ≤ 6 ∧
    ((∀ x ∈ window, 16383 < weightedSum x e / 64) → r.spread = 0) ∧
    r.lbar = ((window.map fun x => sampleLoad x e).sum + e.bank.w / 2) / e.bank.w ∧
    (∀ x : PlaceSample, weightedSum x e = ∑ c : Fin 6, netValue x e c * e.gains[c] ∧
      sampleLoad x e = (if weightedSum x e / 64 ≤ 16383 then weightedSum x e / 64 else 16383) ∧
      ((∀ c : Fin 6, x.cells[c] ≤ 1023 ∧ e.gains[c] ≤ 255) → weightedSum x e ≤ 1565190 ∧ weightedSum x e / 64 ≤ 24456) ∧
      ((∀ c : Fin 6, x.cells[c] ≤ 1023 ∧ e.offsets[c] = 0 ∧ e.gains[c] = 64) →
        sampleLoad x e = ∑ c : Fin 6, x.cells[c] ∧ sampleLoad x e ≤ 6138)) ∧
    (r.disturbed = true ↔ e.bank.w ≤ 2 * window.countP (fun x => x.disturbed) ∨ e.bank.dMax < r.spread) ∧
    (let tags := window.countP fun x => decide (x.tag ≠ .none)
      let forward := window.countP fun x => decide (x.tag = .forward)
      r.tag = if e.bank.w < 2 * tags then (if tags - forward < forward then some .forward else some .rearward) else none)) ∧
  (∀ (ss : SampleStore) (b : BucketNo) (n : Nat), (ss.samplesFrom b n).length = n) ∧
  ∀ (ss : SampleStore) (p : Pos) (w : Nat), w ≤ ss.chains[p].len →
    ss.samplesFrom ss.chains[p].head w = ((ss.chainBuckets p).take w).map fun b => ss.buckets[b].sample

/-- The checks of a whole reply, and their order: CRC, BAD_NODE, SEQUENCE, HOP_MISMATCH. The expected length comes from the reply's
own KIND_SEQ and PLACES, once byte 3 is stored (R26). The CRC-16 of every byte between SYNC and the two check bytes must be these
two, the first the high one (R28). NODE must be 1 to 254 and PLACES 1 to 4, and KIND_SEQ must carry the kind of the poll and the
sequence sent (R29, R31). A reply that has passed every other check is GOOD when its latency lies within 4 ticks of the expected 80
+ 16·s of the polled station s, and HOP_MISMATCH otherwise; SM is handed the latency either way, and writes it for a HOP_MISMATCH of
an ACTIVE station and for a GOOD outcome that it acts on (R30). A GOOD outcome carries the reply's node and place count and, for a
SAMPLE poll, its place records in order, each decoded from its 64-bit value and its buckle byte (R32). -/
def Obligations.LatencyDecidesBetweenGoodAndHopMismatch : Prop :=
  ((∀ bytes : List Byte, bytes.length < 4 → expectedLength bytes = none) ∧
    ∀ (b0 node kindSeq places : Byte) (rest : List Byte),
      let kind := kindSeq.toNat / 16
      (kind = 1 → 1 ≤ places.toNat → places.toNat ≤ 4 →
        expectedLength (b0 :: node :: kindSeq :: places :: rest) = some (4 + 9 * places.toNat + 2)) ∧
      (kind = 2 → expectedLength (b0 :: node :: kindSeq :: places :: rest) = some 7) ∧
      (kind = 1 ∧ (places = 0 ∨ 5 ≤ places.toNat) ∨ kind ≠ 1 ∧ kind ≠ 2 →
        expectedLength (b0 :: node :: kindSeq :: places :: rest) = none)) ∧
  (crc16 [] = 0xFFFF ∧ crc16 [0x31, 0x32, 0x33, 0x34, 0x35, 0x36, 0x37, 0x38, 0x39] = 0x29B1 ∧
    (∀ (bytes : List Byte) (b : Byte),
      let shift := fun r : Word => (r <<< 1) ^^^ (if r.getLsbD 15 = true then (0x1021 : Word) else 0)
      crc16 (bytes ++ [b]) = shift^[8] (crc16 bytes ^^^ (b ++ (0 : Byte)))) ∧
    ∀ (first high low : Byte) (body : List Byte),
      crcOk (first :: (body ++ [high, low])) = true ↔ crc16 body = (high ++ low : Word)) ∧
  (∀ (p : Poll) (b0 node kindSeq places : Byte) (rest : List Byte) (q : BitVec 4) (l : Nat),
    p.sequenceSent = some q → p.latency = some l →
    let buffer := b0 :: node :: kindSeq :: places :: rest
    let nodeSound := node ≠ 0 ∧ node ≠ 255 ∧ 1 ≤ places.toNat ∧ places.toNat ≤ 4
    let echoes := kindSeq.toNat / 16 = (match p.kind with | .sample => 1 | .identify => 2) ∧ kindSeq.toNat % 16 = q.toNat
    let far := 4 < (l : Int) - (80 + 16 * (p.station.val + 1)) ∨ 4 < (80 + 16 * (p.station.val + 1) : Int) - l
    (crcOk buffer = false → frameOutcome p buffer = .crc) ∧
    (crcOk buffer = true →
      (¬ nodeSound → frameOutcome p buffer = .badNode) ∧
      (nodeSound → ¬ echoes → frameOutcome p buffer = .sequence) ∧
      (nodeSound → echoes → far → frameOutcome p buffer = .hopMismatch) ∧
      (nodeSound → echoes → ¬ far → frameOutcome p buffer = .good node places.toNat (match p.kind with
        | .sample => (List.range places.toNat).map fun k => decodeRecord ((buffer.drop (4 + 9 * k)).take 9)
        | .identify => [])))) ∧
  (∀ b0 b1 b2 b3 b4 b5 b6 b7 b8 : Byte,
    let v : BitVec 64 := b7 ++ b6 ++ b5 ++ b4 ++ b3 ++ b2 ++ b1 ++ b0
    let x := decodeRecord [b0, b1, b2, b3, b4, b5, b6, b7, b8]
    (∀ c : Fin 6, x.cells[c] = (v.extractLsb' (10 * c.val) 10).toNat) ∧
    x.tag = (match v.getLsbD 61, v.getLsbD 60 with
      | false, false => .none
      | false, true => .rearward
      | true, false => .forward
      | true, true => .unreadable) ∧
    x.disturbed = v.getLsbD 62 ∧ x.buckle = if b8 = 0 then .opened else if b8 = 1 then .latched else .fault) ∧
  (∀ (s : State) (p : Poll) (l : Nat), p.latency = some l → s.sm.nodes[p.station].state = .active →
    (s.deliver p .hopMismatch).sm.nodes[p.station].latency = l) ∧
  ∀ (s : State) (p : Poll) (l : Nat) (node : Byte) (places : Nat) (samples : List PlaceSample), p.latency = some l →
    (s.sm.nodes[p.station].state = .active ∨ p.kind = .identify) →
    (s.deliver p (.good node places samples)).sm.nodes[p.station].latency = l

/-! ## The Vehicle Port -/

/-- VP_MS_TICK, in every mode and in BUS_OFF: the staleness count rises to at most 1000, reaching it with a stored speed other than
255 makes a speed change due, the elapsed counts rise to at most 2000, and a report whose period has passed, or whose changed
content has met its gap, becomes due unless its slot is pending. Nothing but these counts changes (R135, R139, R141, R142, R148).
That what the tick makes due is kept in a mark until its own command is the model's choice (log entry 15), and so is the count of
BUS_OFF, which stands while the port is ACTIVE (log entry 33). -/
def Obligations.PortTickCountsAndMakesDue : Prop :=
  ∀ s : State, s.power = .on → ∃ t, exec .vpMsTick s = .next t ∧
    t = { s with vp := { s.vp with
      staleness := t.vp.staleness
      staleDue := t.vp.staleDue
      busOffCount := t.vp.busOffCount
      suppression := { s.vp.suppression with elapsed := min (s.vp.suppression.elapsed + 1) 2000, due := t.vp.suppression.due }
      cls := { s.vp.cls with elapsed := min (s.vp.cls.elapsed + 1) 2000, due := t.vp.cls.due }
      belt := { s.vp.belt with elapsed := min (s.vp.belt.elapsed + 1) 2000, due := t.vp.belt.due }
      quality := { s.vp.quality with elapsed := min (s.vp.quality.elapsed + 1) 2000, due := t.vp.quality.due } } } ∧
    t.vp.staleness = min (s.vp.staleness + 1) 1000 ∧
    (t.vp.staleDue = true ↔ s.vp.staleDue = true ∨ s.vp.staleness = 999 ∧ s.vp.speed ≠ 255) ∧
    t.vp.busOffCount = (if s.vp.busOff = true then min (s.vp.busOffCount + 1) 200 else s.vp.busOffCount) ∧
    (t.vp.suppression.due = true ↔ s.vp.suppression.due = true ∨ s.vp.suppression.pending = false ∧
      (50 ≤ t.vp.suppression.elapsed ∨ s.vp.suppression.lastSent ≠ some s.vp.suppression.content ∧ 10 ≤ t.vp.suppression.elapsed)) ∧
    (t.vp.cls.due = true ↔ s.vp.cls.due = true ∨ s.vp.cls.pending = false ∧
      (s.tables.globals.statusPeriod * 10 ≤ t.vp.cls.elapsed ∨ s.vp.cls.lastSent ≠ some s.vp.cls.content ∧ 20 ≤ t.vp.cls.elapsed)) ∧
    (t.vp.belt.due = true ↔ s.vp.belt.due = true ∨ s.vp.belt.pending = false ∧
      (s.tables.globals.statusPeriod * 10 ≤ t.vp.belt.elapsed ∨ s.vp.belt.lastSent ≠ some s.vp.belt.content ∧ 20 ≤ t.vp.belt.elapsed)) ∧
    (t.vp.quality.due = true ↔ s.vp.quality.due = true ∨ s.vp.quality.pending = false ∧
      (s.tables.globals.statusPeriod * 10 ≤ t.vp.quality.elapsed ∨ s.vp.quality.lastSent ≠ some s.vp.quality.content ∧ 20 ≤ t.vp.quality.elapsed))

/-- STATUS_FRAME_DUE and SUPPRESSION_FRAME_DUE, once the due test has held, make the kind's slot pending and change nothing else
(R141, R142). That a mark which an earlier test has set makes the slot pending, also when the content has gone back since, is the
model's choice (log entry 15). -/
def Obligations.DueFramesBecomePending : Prop :=
  ∀ s : State, s.power = .on →
    (s.vp.cls.due = true → exec (.statusFrameDue .cls) s =
      .next { s with vp := { s.vp with cls := { s.vp.cls with pending := true, due := false } } }) ∧
    (s.vp.belt.due = true → exec (.statusFrameDue .belt) s =
      .next { s with vp := { s.vp with belt := { s.vp.belt with pending := true, due := false } } }) ∧
    (s.vp.quality.due = true → exec (.statusFrameDue .quality) s =
      .next { s with vp := { s.vp with quality := { s.vp.quality with pending := true, due := false } } }) ∧
    (s.vp.suppression.due = true → exec .suppressionFrameDue s =
      .next { s with vp := { s.vp with suppression := { s.vp.suppression with pending := true, due := false } } })

/-- BUS_OFF_RECOVERY after 200 ms: the port is ACTIVE again with the failure count at 0, and the BUS_OFF_RECOVERED
event is queued; nothing else changes (R144, R145, R148). -/
def Obligations.BusOffEndsAfterTwoHundredMilliseconds : Prop :=
  ∀ s : State, s.power = .on → s.vp.busOff = true →
    (s.vp.busOffCount = 200 → ∃ t, exec .busOffRecovery s = .next t ∧
      t = { s with vp := { s.vp with busOff := false, failures := 0, eventSlot := t.vp.eventSlot, eventQueue := t.vp.eventQueue } } ∧
      EventGoesOut s t .busOffRecovered 0 0 0) ∧
    (s.vp.busOffCount < 200 → exec .busOffRecovery s = .next s)

/-- SPEED_FRAME: the speed input takes the addressed byte, after a request that the frame may be as well and before the power mode
(log entry 5). The byte is stored and the speed is fresh; in RUN a changed reading marks exactly the positions whose trigger holds at
the new speed, besides those marked before; nothing else changes. SPEED_STALE hands the change to 255 to RU in the same way; a speed
frame that comes between the tick that made the speed stale and SPEED_STALE first does what SPEED_STALE would (R107, R112, R138,
R139). The marks of the triggers are the model's choice (log entry 14), the mark of the stale speed too (log entry 15), and so is the
order of a frame and a waiting SPEED_STALE (log entry 23). -/
def Obligations.SpeedChangesReachTheTriggers : Prop :=
  (∀ (s : State) (f : CanFrame) (b : Byte), s.power = .on → s.vp.busOff = false →
    f.ident = s.tables.speedInput.ident → f.data[s.tables.speedInput.byteIndex.val]? = some b →
    (exec (.speedFrame f) s = .next
      (match s.vp.inputByte s.tables.powerInput f with
        | some v => ((s.takeRequest f).takeSpeed b).takePowerMode (powerModeOf v)
        | none => (s.takeRequest f).takeSpeed b)) ∧
    (f.ident ≠ s.vp.base → f.ident ≠ s.vp.base + 1 → s.takeRequest f = s)) ∧
  (∀ (s : State) (b : Byte),
    let t := s.takeSpeed b
    (s.vp.staleDue = true → t = s.handStale.takeSpeed b) ∧
    (s.vp.staleDue = false →
      t = { s with vp := { s.vp with speed := b, staleness := 0 }, ru := t.ru } ∧ t.speedReading = b ∧
      t.ru = { s.ru with records := t.ru.records } ∧
      ∀ p : Pos, t.ru.records[p] = { s.ru.records[p] with triggered := t.ru.records[p].triggered } ∧
        (t.ru.records[p].triggered = true ↔ s.ru.records[p].triggered = true ∨
          s.mode = .run ∧ s.speedReading ≠ b ∧ s.ru.records[p].state = .pending ∧ s.ru.records[p].deadline = none ∧
            triggerAt (s.profileOf p) b s.ru.ignitionCount))) ∧
  ∀ s : State, s.vp.staleDue = true → s.vp.staleness = 1000 →
    let t := s.handStale
    (s.power = .on → exec .speedStale s = .next t) ∧
    t = { s with vp := { s.vp with staleDue := false }, ru := t.ru } ∧ t.speedReading = 255 ∧
    t.ru = { s.ru with records := t.ru.records } ∧
    ∀ p : Pos, t.ru.records[p] = { s.ru.records[p] with triggered := t.ru.records[p].triggered } ∧
      (t.ru.records[p].triggered = true ↔ s.ru.records[p].triggered = true ∨
        s.mode = .run ∧ s.ru.records[p].state = .pending ∧ s.ru.records[p].deadline = none ∧
          triggerAt (s.profileOf p) 255 s.ru.ignitionCount)

/-- TRANSMIT_START with a free transmitter outside BUS_OFF takes the pending slot that stands first in the order SUPPRESSION,
RESPONSE, EVENT, CLASS, BELT, QUALITY, under the kind's identifier; only the wire changes, and with no slot pending nothing does
(R136, R147). The frame has the bytes that its kind's table gives: index, state and class of positions A and B with 0xFF for a
missing one, the rolling counter and the check (R140, R143, R176); the response as MU formed it; the kind code with LOST, the
subject, the two detail bytes and the stamp of the event's record (R177); and for CLASS, BELT and QUALITY a nibble for each
position, an even one's low and an odd one's high (R140, R176). The codes are those of the tables. That the arbiter waits for this
command, while other commands go on beside a free transmitter and a pending slot, is the model's choice (log entry 46). -/
def Obligations.TransmitStartFollowsTheArbiter : Prop :=
  (∀ s : State, s.power = .on → s.vp.busOff = false → s.vp.wire = none →
    (s.vp.suppression.pending = true → ∃ a, exec .transmitStart s = .next { s with vp := { s.vp with wire := some a } } ∧
      a.ident = s.vp.base + 3 ∧ a.payload = .suppression s.vp.suppression.content ∧ a.resetSince = false ∧
      (let byte := fun (e : Option SuppEntry) (f : SuppEntry → Nat) => e.elim (0xFF : Byte) fun x => BitVec.ofNat 8 (f x)
        let c := s.vp.suppression.content
        a.data[0] = byte c.a (·.pos.val) ∧ a.data[1] = byte c.a (·.state.code) ∧ a.data[2] = byte c.b (·.pos.val) ∧
        a.data[3] = byte c.b (·.state.code) ∧ a.data[4] = byte c.a (·.cls.code) ∧ a.data[5] = byte c.b (·.cls.code)) ∧
      a.data[6] = BitVec.ofNat 8 s.vp.rolling ∧
      a.data[7] = 0xFF - (a.data[0] + a.data[1] + a.data[2] + a.data[3] + a.data[4] + a.data[5] + a.data[6])) ∧
    (s.vp.suppression.pending = false →
      (∀ f, s.vp.response = some f → exec .transmitStart s = .next { s with vp := { s.vp with
        wire := some { payload := .response, ident := s.vp.base + 2, data := f, resetSince := false } } }) ∧
      (s.vp.response = none →
        (∀ r, s.vp.eventSlot = some r → ∃ a, exec .transmitStart s = .next { s with vp := { s.vp with wire := some a } } ∧
          a.ident = s.vp.base + 7 ∧ a.payload = .event ∧ a.resetSince = false ∧
          a.data[0] = BitVec.ofNat 8 (r.kind.code + if r.lost = true then 0x80 else 0) ∧
          a.data[1] = r.subject ∧ a.data[2] = r.detail0 ∧ a.data[3] = r.detail1 ∧
          (a.data[6] ++ a.data[5] ++ a.data[4] : BitVec 24) = r.stamp ∧ a.data[7] = 0) ∧
        (s.vp.eventSlot = none →
          (s.vp.cls.pending = true → ∃ a, exec .transmitStart s = .next { s with vp := { s.vp with wire := some a } } ∧
            a.ident = s.vp.base + 4 ∧ a.payload = .cls s.vp.cls.content ∧ a.resetSince = false ∧
            ∀ i : Fin 8, a.data[i] = BitVec.ofNat 8 (s.vp.cls.content[2 * i.val].code + 16 * s.vp.cls.content[2 * i.val + 1].code)) ∧
          (s.vp.cls.pending = false → s.vp.belt.pending = true →
            ∃ a, exec .transmitStart s = .next { s with vp := { s.vp with wire := some a } } ∧
              a.ident = s.vp.base + 5 ∧ a.payload = .belt s.vp.belt.content ∧ a.resetSince = false ∧
              let nibble := fun b : BeltContent => readingCode b.buckle + 4 * b.indication.code
              ∀ i : Fin 8, a.data[i] = BitVec.ofNat 8 (nibble s.vp.belt.content[2 * i.val] + 16 * nibble s.vp.belt.content[2 * i.val + 1])) ∧
          (s.vp.cls.pending = false → s.vp.belt.pending = false → s.vp.quality.pending = true →
            ∃ a, exec .transmitStart s = .next { s with vp := { s.vp with wire := some a } } ∧
              a.ident = s.vp.base + 6 ∧ a.payload = .quality s.vp.quality.content ∧ a.resetSince = false ∧
              let nibble := fun q : Quality => q.rough.toNat + 2 * q.sampleLoss.toNat + 4 * q.defaultCal.toNat + 8 * q.linkDown.toNat
              ∀ i : Fin 8, a.data[i] =
                BitVec.ofNat 8 (nibble s.vp.quality.content[2 * i.val] + 16 * nibble s.vp.quality.content[2 * i.val + 1])) ∧
          (s.vp.cls.pending = false → s.vp.belt.pending = false → s.vp.quality.pending = false →
            exec .transmitStart s = .next s))))) ∧
  [Cls.unknown, .empty, .object, .childSeatRear, .childSeatFwd, .smallOccupant, .adult, .notConfigured].map Cls.code =
    [0, 1, 2, 3, 4, 5, 6, 15] ∧
  [Suppression.indeterminate, .enable, .suppress].map Suppression.code = [0, 1, 2] ∧
  [some Reading.opened, some .latched, some .fault, none].map readingCode = [0, 1, 2, 3] ∧
  [Indication.none, .lamp, .lampAndChime, .expired].map Indication.code = [0, 1, 2, 3] ∧
  [EventKind.stationFound, .seatChanged, .linkLost, .linkRestored, .hopMismatch, .placeMissing, .calMissing, .sampleLoss,
    .busOffRecovered, .modeChanged].map EventKind.code = [1, 2, 3, 4, 5, 6, 7, 8, 9, 10]

/-- The eight bytes of every suppression frame sum to 0xFF modulo 256 (R143). -/
def Obligations.SuppressionFrameBytesSumToFF : Prop :=
  ∀ (c : SuppContent) (rolling : Nat),
    ((suppressionFrame c rolling).toList.map BitVec.toNat).sum % 256 = 0xFF ∧ (suppressionFrame c rolling)[6] = BitVec.ofNat 8 rolling

/-- TRANSMIT_SUCCESS frees the transmitter and clears the failure count; a report's slot is cleared, its elapsed count set to 0 and
its content recorded; the rolling counter goes on, from 14 to 0, unless a RESET_RUNTIME came during the attempt; the RESPONSE slot is
emptied; the EVENT slot is refilled from the head of the queue. LOST_ARBITRATION and TRANSMIT_FAILURE free the transmitter and leave
the slot pending, but for an EVENT slot that a RESET_RUNTIME would have emptied, which is refilled; a failure counts, and the 32nd in
a row takes the port to BUS_OFF. Nothing else changes (R141 to R148). -/
def Obligations.AttemptsSettleOrKeepTheSlot : Prop :=
  ∀ (s : State) (a : Attempt), s.power = .on → s.vp.wire = some a →
    let v := if a.payload = .event ∧ a.resetSince = true then
        { s.vp with wire := none, eventSlot := s.vp.eventQueue.head?, eventQueue := s.vp.eventQueue.tail }
      else { s.vp with wire := none }
    exec .transmitSuccess s = .next { s with vp :=
      match a.payload with
      | .suppression c => { s.vp with
          wire := none
          failures := 0
          suppression := { s.vp.suppression with pending := false, elapsed := 0, lastSent := some c }
          rolling := if a.resetSince = true then s.vp.rolling else if s.vp.rolling < 14 then s.vp.rolling + 1 else 0 }
      | .response => { s.vp with wire := none, failures := 0, response := none }
      | .event => { s.vp with wire := none, failures := 0, eventSlot := s.vp.eventQueue.head?, eventQueue := s.vp.eventQueue.tail }
      | .cls c => { s.vp with wire := none, failures := 0, cls := { s.vp.cls with pending := false, elapsed := 0, lastSent := some c } }
      | .belt c => { s.vp with wire := none, failures := 0, belt := { s.vp.belt with pending := false, elapsed := 0, lastSent := some c } }
      | .quality c => { s.vp with wire := none, failures := 0, quality := { s.vp.quality with pending := false, elapsed := 0, lastSent := some c } } } ∧
    exec .lostArbitration s = .next { s with vp := v } ∧
    (s.vp.failures < 31 → exec .transmitFailure s = .next { s with vp := { v with failures := s.vp.failures + 1 } }) ∧
    (31 ≤ s.vp.failures → exec .transmitFailure s = .next { s with vp := { v with failures := 32, busOff := true, busOffCount := 0 } })

/-! ## Management -/

/-- A frame on a request identifier, base + 0 or base + 1, that reaches a SERVING MU is discarded, whichever row it stands under: the
overlap flag is set and nothing else changes. A frame on another identifier is no request, and in BUS_OFF no frame is received at
all. A frame on a request identifier that is the identifier of a vehicle input too acts on that input besides; one that is not acts
on no input (R136, R137, R148, R151); that a frame comes as one command, the request first, is the model's choice (log entry 5). -/
def Obligations.ServingUnitDiscardsRequests : Prop :=
  ∀ (s : State) (f : CanFrame) (c : Instr), s.power = .on →
    c ∈ [Instr.requestDiscarded, .malformedRequest, .readWord, .writeWord, .writePositionStation, .writeAirbagRelevant,
      .writeOverrideEnable, .writeOverrideLatched, .writeMasked, .setModeRun, .setModeHold, .setModeConfig, .step,
      .reidentify, .resetRuntime].map f.under → c.wf = true →
    (s.vp.busOff = false → (f.ident = s.vp.base ∨ f.ident = s.vp.base + 1) → s.mu.service.isSome = true →
      exec c s = .next (s.thenInputs f { s with mu := { s.mu with overlap := true } })) ∧
    (s.vp.busOff = true ∨ f.ident ≠ s.vp.base ∧ f.ident ≠ s.vp.base + 1 → exec c s = .next s) ∧
    (f.ident ≠ s.tables.speedInput.ident → f.ident ≠ s.tables.powerInput.ident → ∀ t, s.thenInputs f t = t)

/-- A frame on base + 0 is an operational request and one on base + 1 a service request. MALFORMED_REQUEST: an IDLE MU accepts a
frame whose data length is not 8, or whose kind is 0 or 8 to 15, answers MALFORMED and changes nothing else; the echo is byte 0, or
0 for an empty frame, and that the fields MU does not read are 0 is the model's choice (log entry 18). The record of any other frame
has its kind and tag from byte 0, table id, entry and word from bytes 1 to 3, and the value and the mask from bytes 4 to 7, low byte
first (R136, R137, R150, R153, R175). -/
def Obligations.MalformedFramesAreAnsweredMalformed : Prop :=
  (∀ (s : State) (f : CanFrame) (level : Level), s.serves →
    (level = .operational ∧ f.ident = s.vp.base ∨ level = .service ∧ f.ident = s.vp.base + 1) →
    (f.data.length ≠ 8 ∨ (f.data.headD 0).toNat / 16 = 0 ∨ 8 ≤ (f.data.headD 0).toNat / 16) →
    exec (f.under .malformedRequest) s = .next (s.thenInputs f (s.serving
      { level := level, echo := f.data.headD 0, kind := (f.data.headD 0).toNat / 16, tag := (f.data.headD 0).setWidth 4,
        id := 0, entry := 0, word := 0, value := 0, mask := 0 } (.result { status := .malformed })))) ∧
  (∀ (base : BitVec 11) (rec : RequestRecord) (k : Nat), 1 ≤ k → k ≤ 7 → rec.ofKind k →
    requestRecord rec.level (requestFrame base rec).data = rec ∧ malformedData (requestFrame base rec).data = false) ∧
  ∀ (vp : VehiclePort) (rec : RequestRecord) (f : CanFrame), vp.busOff = false →
    vp.requestLevel (requestFrame vp.base rec) = some rec.level ∧
    (vp.requestLevel f = some .operational ↔ f.ident = vp.base) ∧ (vp.requestLevel f = some .service ↔ f.ident = vp.base + 1)

/-- READ_WORD of an item that exists and may be touched is answered OK with the word as it stands; any other is answered NOT_PRESENT
with data 0. Nothing else changes, but for a vehicle input that the frame may bring as well (R154, R155, R159). Each table word has
the fields of its entry at their bits (R178), each Node Map view word those of the station's record (R179), and each Position
Context view word those that SS, CL and RU hold of the position (R180). -/
def Obligations.ReadWordAnswersTheWordAsItStands : Prop :=
  (∀ s : State, s.TableWords ∧ s.ViewWords) ∧
  ∀ (s : State) (rec : RequestRecord), s.serves → rec.ofKind 1 →
    let f := requestFrame s.vp.base rec
    (∀ a, address rec.id rec.entry rec.word = some a → mayTouch rec.level a = true →
      exec (f.under .readWord) s = .next (s.thenInputs f (s.serving rec (.result { status := .ok, data := s.readAt a })))) ∧
    ((∀ a, address rec.id rec.entry rec.word = some a → mayTouch rec.level a = false) →
      exec (f.under .readWord) s = .next (s.thenInputs f (s.serving rec (.result { status := .notPresent, data := 0 }))))

/-- A write that passes every check, under any of its five rows, stores the value: the word reads back as it was written and is the
answer's data, every other table word reads as before, and of the other state only CL's, RU's, OU's and VP's follow (R153, R160,
R178). A write of a Position Table station fits or unfits the position: CL's record and the quality flags follow, a changed class is
handed to RU and VP and, of an airbag-relevant position, to OU (R95, R98). A write of an airbag-relevant flag leaves every class as
it is, and CL hands the suppression of the new positions A and B to OU and VP (R96, R97). Any other write leaves CL, RU and VP
alone, and of OU changes at most an override. -/
def Obligations.AcceptedWriteReadsBackAndTouchesNoOtherWord : Prop :=
  ∀ (s : State) (rec : RequestRecord) (a : Address) (c : Instr), s.serves → rec.ofKind 2 →
    let f := requestFrame s.vp.base rec
    c ∈ [Instr.writeWord, .writePositionStation, .writeAirbagRelevant, .writeOverrideEnable, .writeOverrideLatched].map f.under →
    c.wf = true →
    address rec.id rec.entry rec.word = some a → a.isView = false → mayTouch rec.level a = true → a.writableIn s.mode = true →
    inRange a.layout rec.value = true → s.tables.conflict a rec.value = none →
    ∃ t, exec c s = .next (s.thenInputs f t) ∧ t.readAt a = rec.value ∧
      (∀ b : Address, b ≠ a → (∀ p w, b ≠ .context p w) → t.readAt b = s.readAt b) ∧
      t.mu = { s.mu with service := some { req := rec, work := .result { status := .ok, data := rec.value } } } ∧
      t = { s with tables := t.tables, cl := t.cl, ru := t.ru, ou := t.ou, vp := t.vp, mu := t.mu } ∧
      (∀ p : Pos, a = .position p 0 → FittingsWritten s t [p]) ∧
      (∀ p : Pos, a = .position p 3 → FlagsWritten s t) ∧
      ((∀ p : Pos, a ≠ .position p 0 ∧ a ≠ .position p 3) →
        t.cl = s.cl ∧ t.ru = s.ru ∧ t.vp = s.vp ∧ t.ou = { s.ou with overrides := t.ou.overrides }) ∧
      ((∀ i w, a ≠ .override i w) → t.ou.overrides = s.ou.overrides)

/-- A write that fails a check changes nothing but MU's request in service, which is answered with the first check that fails:
NOT_PRESENT, MODE, RANGE, then CONFLICT with the conflicting entry in detail byte 5 (R153). An item exists exactly within the shape
of its table (R154); the operational identifier may touch all but the Calibration Table and Position Table word 3 (R155); each table
is writable in its modes (R156), and takes the values of its ranges, with every unused bit 0 (R157); and the three conflicts name the
lowest other position with the same station and place, the lower of two other flagged positions, and the other entry with the same
node id (R158). -/
def Obligations.RefusedWriteChangesNothing : Prop :=
  (∀ id entry word : Byte,
    ((address id entry word).isSome = true ↔
      ∃ row ∈ itemShapes, id.toNat = row.1 ∧ entry.toNat < row.2.1 ∧ word.toNat < row.2.2) ∧
    ∀ a, address id entry word = some a ↔ a.tableId = id.toNat ∧ a.entryNo = entry.toNat ∧ a.wordNo = word.toNat) ∧
  (∀ a : Address, (a.isView = true ↔ a.tableId = 10 ∨ a.tableId = 11) ∧ mayTouch .service a = true ∧
    (mayTouch .operational a = true ↔ ¬ a.ServiceOnly) ∧ (∀ m, a.writableIn m = true ↔ a.OpenIn m) ∧
    (a.isView = false → ∀ v, inRange a.layout v = true ↔ a.Takes v.toNat) ∧
    ∀ (t : Tables) (v : Word) (e : Fin 16), a.Takes v.toNat → (t.conflict a v = some e ↔ t.ConflictsWith a v.toNat e)) ∧
  ∀ (s : State) (rec : RequestRecord) (c : Instr), s.serves → rec.ofKind 2 →
    let f := requestFrame s.vp.base rec
    c ∈ [Instr.writeWord, .writePositionStation, .writeAirbagRelevant, .writeOverrideEnable, .writeOverrideLatched].map f.under →
    c.wf = true →
    let answered := fun r : Result => exec c s = .next (s.thenInputs f (s.serving rec (.result r)))
    ((∀ a, address rec.id rec.entry rec.word = some a → a.isView = true ∨ mayTouch rec.level a = false) →
      answered { status := .notPresent }) ∧
    ∀ a, address rec.id rec.entry rec.word = some a → a.isView = false → mayTouch rec.level a = true →
      (a.writableIn s.mode = false → answered { status := .mode }) ∧
      (a.writableIn s.mode = true → inRange a.layout rec.value = false → answered { status := .range }) ∧
      (a.writableIn s.mode = true → inRange a.layout rec.value = true → ∀ e, s.tables.conflict a rec.value = some e →
        answered { status := .conflict, detail5 := BitVec.ofNat 8 e.val })

/-- WRITE_MASKED writes all masked positions or none. A table other than 1 is answered MALFORMED; a word above 3, or word 3 on the
operational identifier, NOT_PRESENT; outside CONFIG it is answered MODE; a mask of 0 RANGE, and a value out of range RANGE with the
lowest masked position; each with nothing changed. With every check passed each masked word reads back as the value, every other
table and Node Map word reads as before, and the answer is OK with the value and the number of positions. The positions are tested
for conflict in ascending order, each against the table as the writes to the lower ones would leave it, and the first conflict
refuses the whole with nothing written (R155, R161). Each write has the effect of its own: CL's record of a position that is fitted
or unfitted follows, and the class, the quality flags and the suppression are handed to RU, OU and VP as a write of that position
alone would; new airbag-relevant flags reach OU and VP (R95 to R98). That the effects follow once all the words are stored, in
ascending position, is the model's reading (log entry 28). -/
def Obligations.MaskedWriteIsAllOrNone : Prop :=
  ∀ (s : State) (rec : RequestRecord), s.serves → rec.ofKind 3 →
    let f := requestFrame s.vp.base rec
    let answered := fun r : Result => exec (f.under .writeMasked) s = .next (s.thenInputs f (s.serving rec (.result r)))
    (rec.id ≠ 1 → answered { status := .malformed }) ∧
    (rec.id = 1 → 4 ≤ rec.word.toNat → answered { status := .notPresent }) ∧
    ∀ w : Fin 4, rec.id = 1 → rec.word.toNat = w.val →
      (w = 3 → rec.level = .operational → answered { status := .notPresent }) ∧
      ((w = 3 → rec.level = .service) →
        (s.mode ≠ .config → answered { status := .mode }) ∧
        (s.mode = .config → rec.mask = 0 → answered { status := .range }) ∧
        (s.mode = .config → inRange (positionLayout w) rec.value = false → ∀ p : Pos, rec.mask.getLsbD p.val = true →
          (∀ q < p, rec.mask.getLsbD q.val = false) → answered { status := .range, detail5 := BitVec.ofNat 8 p.val }) ∧
        (s.mode = .config → rec.mask ≠ 0 → inRange (positionLayout w) rec.value = true →
          let masked := (List.finRange 16).filter fun p => rec.mask.getLsbD p.val
          let conflict := s.tables.maskedConflict w rec.value masked
          let lowerWritten := fun k : Nat => (masked.take k).foldl (fun t q => t.store (.position q w) rec.value) s.tables
          (∀ p e, conflict = some (p, e) ↔ ∃ k : Nat, masked[k]? = some p ∧
            (lowerWritten k).conflict (.position p w) rec.value = some e ∧
            ∀ j q, j < k → masked[j]? = some q → (lowerWritten j).conflict (.position q w) rec.value = none) ∧
          (conflict = none →
            ∃ t, exec (f.under .writeMasked) s = .next (s.thenInputs f t) ∧
              (∀ p : Pos, rec.mask.getLsbD p.val = true → t.readAt (.position p w) = rec.value) ∧
              (∀ b : Address, (∀ p : Pos, rec.mask.getLsbD p.val = true → b ≠ .position p w) → (∀ p v, b ≠ .context p v) →
                t.readAt b = s.readAt b) ∧ t.tables = { s.tables with positions := t.tables.positions } ∧
              t.mu = { s.mu with service := some { req := rec, work := .result {
                status := .ok, data := rec.value, detail5 := BitVec.ofNat 8 (Finset.univ.filter fun p : Pos => rec.mask.getLsbD p.val = true).card } } } ∧
              t = { s with tables := t.tables, cl := t.cl, ru := t.ru, ou := t.ou, vp := t.vp, mu := t.mu } ∧
              (∀ p : Pos, ClassFitted s t p) ∧ (w = 0 → FittingsWritten s t masked) ∧ (w = 3 → FlagsWritten s t) ∧
              (w = 1 ∨ w = 2 → t.cl = s.cl ∧ t.ru = s.ru ∧ t.ou = s.ou ∧ t.vp = s.vp)) ∧
          (∀ p e, conflict = some (p, e) →
            exec (f.under .writeMasked) s = .next (s.thenInputs f (s.serving rec
              (.result { status := .conflict, detail5 := BitVec.ofNat 8 p.val, detail6 := BitVec.ofNat 8 e.val }))))))

/-- No request on the operational identifier reads or writes the Calibration Table or an airbag-relevant flag, enters CONFIG or
resets the runtime: each is answered NOT_PRESENT and changes nothing else (R155, R161, R164, R165). -/
def Obligations.OperationalLevelCannotTouchServiceItems : Prop :=
  ∀ (s : State) (rec : RequestRecord) (c : Instr) (k : Nat), s.serves → rec.level = .operational → rec.ofKind k →
    let f := requestFrame s.vp.base rec
    let hidden := rec.id = 2 ∨ rec.id = 1 ∧ rec.word = 3
    (hidden ∧ (k = 1 ∧ c = f.under .readWord ∨ k = 2 ∧ c ∈ [Instr.writeWord, .writeAirbagRelevant].map f.under) ∨
      rec.id = 1 ∧ rec.word = 3 ∧ k = 3 ∧ c = f.under .writeMasked ∨
      rec.id = 0 ∧ k = 4 ∧ c = f.under .setModeConfig ∨ k = 7 ∧ c = f.under .resetRuntime) → c.wf = true →
    exec c s = .next (s.thenInputs f (s.serving rec (.result { status := .notPresent })))

/-- SET_MODE_RUN in CONFIG or HOLD: with sound tables the part enters RUN as one event: every chain empty with its loss flags clear,
every class UNKNOWN or NOT_CONFIGURED, an escalating reminder suspended, the routing built from the fitted positions, every ACTIVE
station's miss count 0 and its calibration looked up, LINK_DOWN and DEFAULT_CAL by its places and its entry, the slot index 0 and
every override enable cleared, while Cabin Time, the buckles, the ignition-on counter and the On-Demand Queue are kept. With a flaw
the answer is INVALID_TABLES with the table, entry and word of the first of the ten checks that fails, and nothing else changes. In
RUN it is answered OK; a mode byte that names no mode is answered RANGE, under any of the three rows (log entry 8) (R3, R13, R15,
R144, R164, R170, R171, R174). Its events are MODE_CHANGED, then a CAL_MISSING for each ACTIVE station whose node no entry names,
then a PLACE_MISSING for each routed position at or above its station's place count; that MODE_CHANGED is the first of them is the
model's reading (log entry 29), and the order of the CAL_MISSING events is its choice (log entry 35). -/
def Obligations.SetModeRunEntersRunOrNamesTheFlaw : Prop :=
  (∀ (s : State) (rec : RequestRecord), s.serves → rec.ofKind 4 →
    let f := requestFrame s.vp.base rec
    let answered := fun (c : Instr) (r : Result) => exec c s = .next (s.thenInputs f (s.serving rec (.result r)))
    (3 ≤ rec.id.toNat → ∀ c ∈ [Instr.setModeRun, .setModeHold, .setModeConfig].map f.under, answered c { status := .range }) ∧
    (rec.id = 1 → s.mode = .run → answered (f.under .setModeRun) { status := .ok, data := 1 }) ∧
    (rec.id = 1 → s.mode ≠ .run →
      (∀ w, s.tables.flaw = some w →
        answered (f.under .setModeRun) { status := .invalidTables, detail5 := w.table, detail6 := w.entry, detail7 := w.word }) ∧
      (s.tables.flaw = none → PlacesDistinct s.tables →
        let active := (List.finRange 8).filter fun st => s.sm.nodes[st].state == .active
        ∃ t, exec (f.under .setModeRun) s = .next (s.thenInputs f t) ∧
        t = { s with
          mode := .run, tb := { s.tb with slotTimer := min s.tb.slotTimer s.tables.globals.slotPeriod },
          ps := { s.ps with slotIndex := 0 }, sm := t.sm, ss := t.ss, cl := t.cl, ru := t.ru, ou := t.ou, vp := t.vp, mu := t.mu } ∧
        t.mu = { s.mu with service := some { req := rec, work := .result { status := .ok, data := 1 } } } ∧
        EventsQueued s.vp t.vp ([eventOf s .modeChanged 0 1 0] ++
          (active.flatMap fun st => calMissingEvents s st s.sm.nodes[st].nodeId) ++
          active.flatMap fun st => placeMissingEvents s
            (fun q => if (s.entry q).station = some st then some (s.entry q).place else none) s.sm.nodes[st].places) ∧
        QueueFlushed s.ss t.ss (fun _ => true) ∧
        t.ru.buckles = s.ru.buckles ∧ t.ru.ignitionCount = s.ru.ignitionCount ∧ t.ru.ignitionTime = s.ru.ignitionTime ∧
        (∀ i : Fin 7, t.ou.overrides[i] = { s.ou.overrides[i] with enable := false }) ∧
        (∀ (st : Station) (q : Place) (p : Pos),
          t.sm.routing[st][q] = some p ↔ (s.entry p).station = some st ∧ (s.entry p).place = q) ∧
        (∀ st : Station, t.sm.nodes[st] = if s.sm.nodes[st].state = .active then { s.sm.nodes[st] with
          misses := 0, calIndex := s.tables.findCalibration s.sm.nodes[st].nodeId } else s.sm.nodes[st]) ∧
        ∀ p : Pos, RunFlags s t p ∧ t.ss.chains[p] = { flushedChain s.ss.chains[p] with loss := false } ∧ t.cl[p].candidate = none ∧ t.cl[p].confirm = 0 ∧
          t.cl[p].disturbedRun = 0 ∧ t.cl[p].committed = (if (s.entry p).station.isSome then Cls.unknown else Cls.notConfigured) ∧
          let r := s.ru.records[p]
          ((s.entry p).station.isSome = true → s.cl[p].committed ≠ .unknown →
            (r.state = .pending ∨ r.state = .stage1 ∨ r.state = .stage2 ∨ r.state = .expired) →
            t.ru.records[p] = { state := .suspended, remembered := some r.state, timer := r.timer, deadline := r.deadline })))) ∧
  (∀ t : Tables, FirstFlaw t) ∧
  ∀ (t : Tables) (n : Byte) (e : Fin 16), NodesDistinct t → n ≠ 0 → (t.findCalibration n = some e ↔ t.calibration[e].nodeId = n)

/-- SET_MODE_HOLD in RUN: the mode is HOLD at once, Cabin Time and the slot timer stand, each lamp line keeps its level as held, and
the answer OK comes at once when nothing is in flight (log entry 27), or when HOLD_SETTLED finds nothing in flight. The chains,
classes, reminders and stations keep still. In HOLD it is answered OK and in CONFIG MODE, with nothing changed (R131, R144, R164,
R168, R174). That a slot start and the ticks which their blocks have not taken yet are dropped is the model's choice (log entry 12),
and so is that the change which has waited ends at HOLD_SETTLED alone (log entry 47). -/
def Obligations.SetModeHoldHoldsTheLamps : Prop :=
  (∀ (s : State) (rec : RequestRecord), s.serves → rec.ofKind 4 → rec.id = 2 →
    let f := requestFrame s.vp.base rec
    let answered := fun r : Result => exec (f.under .setModeHold) s = .next (s.thenInputs f (s.serving rec (.result r)))
    (s.mode = .hold → answered { status := .ok, data := 2 }) ∧ (s.mode = .config → answered { status := .mode }) ∧
    (s.mode = .run → ∃ t, exec (f.under .setModeHold) s = .next (s.thenInputs f t) ∧
      t = { s with
        mode := .hold, change := t.change, tb := { s.tb with slotStarts := 0, ticks10 := [], ticks100 := [] },
        ou := { s.ou with held := t.ou.held }, vp := t.vp, mu := t.mu } ∧
      (∀ g : Fin 6, t.ou.held[g] = s.lampLine g) ∧ EventGoesOut s t .modeChanged 0 2 0 ∧
      t.vp = { s.vp with eventSlot := t.vp.eventSlot, eventQueue := t.vp.eventQueue } ∧
      if s.lc.poll = none ∧ s.we = none then
        t.change = s.change ∧
        t.mu = { s.mu with service := some { req := rec, work := .result { status := .ok, data := 2 } } }
      else
        t.change = .holdSettling ∧ t.mu = { s.mu with service := some { req := rec, work := .changing } })) ∧
  ∀ (s : State) (rec : RequestRecord), s.power = .on → s.change = .holdSettling →
    s.mu.service = some { req := rec, work := .changing } →
    (s.lc.poll = none → s.we = none → exec .holdSettled s = .next { s with
      change := .none, mu := { s.mu with service := some { req := rec, work := .result { status := .ok, data := 2 } } } }) ∧
    (s.lc.poll ≠ none ∨ s.we ≠ none → exec .holdSettled s = .next s)

/-- SET_MODE_CONFIG on the service identifier, in RUN or HOLD: a vehicle that moves is answered MOVING and nothing else changes;
with nothing in flight the entry is made, and answered OK, at acceptance (log entry 27); otherwise the change waits and the mode
stays. CONFIG_ENTRY makes the entry once nothing is in flight: the mode is CONFIG, the On-Demand Queue and the routing are empty,
the sweep is at station 1, every reminder is closed, every buckle UNKNOWN and every position flushed; the Node Map, the tables,
Cabin Time and the ignition-on counter are kept. In CONFIG the request is answered OK (R3, R44, R120, R144, R164, R169, R174). A
completion that leaves nothing in flight has the entry come before the next evaluation, while after a poll's outcome an evaluation
that can start comes first: the model's reading (log entry 26). That the entry which has waited comes at CONFIG_ENTRY alone is its
choice (log entry 47). -/
def Obligations.ConfigIsEnteredWhenNothingIsInFlight : Prop :=
  (∀ (s : State) (rec : RequestRecord), s.serves → rec.ofKind 4 → rec.level = .service → rec.id = 0 →
    let f := requestFrame s.vp.base rec
    let answered := fun r : Result => exec (f.under .setModeConfig) s = .next (s.thenInputs f (s.serving rec (.result r)))
    (s.mode = .config → answered { status := .ok, data := 0 }) ∧
    (s.mode ≠ .config → s.speedReading ≠ 0 → answered { status := .moving }) ∧
    (s.mode ≠ .config → s.speedReading = 0 → (s.lc.poll ≠ none ∨ s.we ≠ none) → exec (f.under .setModeConfig) s =
      .next (s.thenInputs f { s.serving rec .changing with change := .configWaiting false })) ∧
    (s.mode ≠ .config → s.speedReading = 0 → s.lc.poll = none → s.we = none →
      ∃ t, exec (f.under .setModeConfig) s = .next (s.thenInputs f t) ∧ ConfigEntered s t ∧ t.change = s.change ∧
        t.mu = { s.mu with service := some { req := rec, work := .result { status := .ok, data := 0 } } })) ∧
  ∀ (s : State) (rec : RequestRecord) (due : Bool), s.power = .on → s.change = .configWaiting due →
    s.mu.service = some { req := rec, work := .changing } →
    (s.lc.poll = none → s.we = none →
      (due = true ∨ ∀ q ∈ s.ss.evalQueue, s.ss.chains[q].len < (s.bankInForce q).w) →
      ∃ t, exec .configEntry s = .next t ∧ ConfigEntered s t ∧ t.change = .none ∧
        t.mu = { s.mu with service := some { req := rec, work := .result { status := .ok, data := 0 } } }) ∧
    (due = false → s.mode = .run → (∃ q ∈ s.ss.evalQueue, (s.bankInForce q).w ≤ s.ss.chains[q].len) →
      exec .configEntry s = .next s) ∧
    (s.lc.poll ≠ none ∨ s.we ≠ none → exec .configEntry s = .next s) ∧
    ∀ e, s.we = some e → ∃ t, exec .evaluationCompletion s = .next t ∧ t.change = .configWaiting s.lc.poll.isNone ∧ t.mode = s.mode

/-- STEP in HOLD with a count of 1 to 16 begins the steps; elsewhere it is answered MODE, and with another count RANGE. Nothing but
MU's request changes (R163). -/
def Obligations.StepIsServedInHoldOnly : Prop :=
  ∀ (s : State) (rec : RequestRecord), s.serves → rec.ofKind 5 →
    let f := requestFrame s.vp.base rec
    (s.mode = .hold → 1 ≤ rec.entry.toNat → rec.entry.toNat ≤ 16 → exec (f.under .step) s = .next (s.thenInputs f
      (s.serving rec (.stepping { count := rec.entry.toNat, remaining := rec.entry.toNat, inStep := false, deadlinesTested := false })))) ∧
    (s.mode = .hold → (rec.entry.toNat = 0 ∨ 16 < rec.entry.toNat) → exec (f.under .step) s =
      .next (s.thenInputs f (s.serving rec (.result { status := .range })))) ∧
    (s.mode ≠ .hold → exec (f.under .step) s = .next (s.thenInputs f (s.serving rec (.result { status := .mode }))))

/-- REIDENTIFY in RUN or HOLD: a station that waits already is merged, a fifth is answered QUEUE_FULL, and any other joins the tail
of the On-Demand Queue; in CONFIG it is answered MODE, and outside 1 to 8 RANGE. Nothing else changes (R43, R162). -/
def Obligations.ReidentifyQueuesMergesOrRefuses : Prop :=
  ∀ (s : State) (rec : RequestRecord), s.serves → rec.ofKind 6 →
    let f := requestFrame s.vp.base rec
    let answered := fun r : Result => exec (f.under .reidentify) s = .next (s.thenInputs f (s.serving rec (.result r)))
    (s.mode = .config → answered { status := .mode }) ∧
    (s.mode ≠ .config → (rec.entry = 0 ∨ 8 < rec.entry.toNat) → answered { status := .range }) ∧
    (s.mode ≠ .config → ∀ st : Station, rec.entry.toNat = st.val + 1 →
      (st ∈ s.ps.onDemand → answered { status := .ok, data := rec.entry.setWidth 16, detail5 := 1 }) ∧
      (st ∉ s.ps.onDemand → 4 ≤ s.ps.onDemand.length → answered { status := .queueFull }) ∧
      (st ∉ s.ps.onDemand → s.ps.onDemand.length < 4 → exec (f.under .reidentify) s =
        .next (s.thenInputs f { s.serving rec (.result { status := .ok, data := rec.entry.setWidth 16 }) with
          ps := { s.ps with onDemand := s.ps.onDemand ++ [st] } })))

/-- RESET_RUNTIME on the service identifier with a standing vehicle: the mode is CONFIG and every runtime record takes its reset
value at once, while the tables, the overrides' latched values, Cabin Time, the slot timer, the poll in flight, the vehicle inputs,
the RESPONSE slot and the overlap flag are kept; the EVENT slot is emptied unless its frame is on the wire, and MODE_CHANGED is
queued. With no evaluation in flight SS is reset too and the answer is OK with data 0; otherwise SS keeps still, the completion of
the evaluation is discarded and resets it, and the answer is OK then. A moving vehicle is answered MOVING and nothing else changes
(R16, R46, R49, R64, R84, R103, R123, R143 to R145, R165, R172, R174). That SAMPLE_LOSS is cleared at once, and again at the
completion, is the model's choice (log entry 39), and so is the `next` of bucket 0 (log entry 37), and that OU's copy of position
A's suppression state is the one that CL hands it at the reset (R96), where R123's table has none (log entry 41), and that the
captures are cleared with the rest of R103, where R105 and R106 have these resets write none (log entry 42). -/
def Obligations.ResetRuntimeKeepsTheTables : Prop :=
  (∀ (s : State) (rec : RequestRecord), s.serves → rec.ofKind 7 → rec.level = .service →
    let f := requestFrame s.vp.base rec
    (s.speedReading ≠ 0 → exec (f.under .resetRuntime) s = .next (s.thenInputs f (s.serving rec (.result { status := .moving })))) ∧
    (s.speedReading = 0 → ∃ t, exec (f.under .resetRuntime) s = .next (s.thenInputs f t) ∧ RuntimeReset s t ∧
      t.mu = { s.mu with service := some {
        req := rec, work := if s.we = none then .result { status := .ok, data := 0 } else .changing } } ∧
      (s.we = none → t.change = s.change ∧ StoreReset s t) ∧ (s.we ≠ none → t.change = .resetSettling ∧ t.ss = s.ss))) ∧
  ∀ (s : State) (e : Evaluation) (rec : RequestRecord), s.power = .on → s.we = some e → s.change = .resetSettling →
    s.mu.service = some { req := rec, work := .changing } →
    ∃ t, exec .evaluationCompletion s = .next t ∧ StoreReset s t ∧
      t = { s with
        we := none, change := .none, ss := t.ss, cl := t.cl, vp := { s.vp with quality := t.vp.quality }
        mu := { s.mu with service := some { req := rec, work := .result { status := .ok, data := 0 } } } } ∧
      ∀ p : Pos, t.cl[p] = { s.cl[p] with quality := { s.cl[p].quality with sampleLoss := false } }

/-- RESPONSE_HANDOVER with a result ready and the RESPONSE slot empty: the response carries the echo, the status, the overlap flag
and the mode of the moment, the data word low byte first and the detail; MU is then IDLE with the overlap flag clear, and nothing
else changes. A slot that is full makes MU wait (R151, R152). The codes of the status and of the mode are those of the tables. That
the hand-over comes apart from the command which makes the result, also with the slot empty, so that a request between the two is
discarded, is the model's choice (log entry 38). -/
def Obligations.HandOverFormsTheResponse : Prop :=
  [Status.ok, .malformed, .notPresent, .mode, .range, .conflict, .queueFull, .moving, .invalidTables].map Status.code =
    [0, 1, 2, 3, 4, 5, 6, 7, 8] ∧
  [Mode.config, .run, .hold].map Mode.code = [0, 1, 2] ∧
  ∀ (s : State) (rec : RequestRecord) (r : Result), s.power = .on → s.mu.service = some { req := rec, work := .result r } →
    (s.vp.response = none → ∃ f : Frame, exec .responseHandover s = .next { s with
        vp := { s.vp with response := some f }
        mu := { service := none, overlap := false } } ∧
      f[0] = rec.echo ∧ f[1] = BitVec.ofNat 8 r.status.code ∧
      f[2] = BitVec.ofNat 8 ((if s.mu.overlap then 1 else 0) + 2 * s.mode.code) ∧
      (f[4] ++ f[3] : BitVec 16) = r.data ∧
      f[5] = r.detail5 ∧ f[6] = r.detail6 ∧ f[7] = r.detail7) ∧
    (s.vp.response.isSome = true → exec .responseHandover s = .next s)

/-! ## What every moment promises -/

/-- Every step keeps the buckets accounted for, 255 in the free list and the chains together, and the chain cap in its range. In a
state where a change in progress has its request, every step keeps each bucket in exactly one list with its links sound, and every
chain within the cap (R3, R50, R51, R53, R63, R157). -/
def Obligations.EveryStepAccountsForTheBuckets : Prop :=
  (∀ s t : State, StoreSound s → Sys2Proof.Machine.step s = .next t → StoreSound t) ∧
  ∀ s t : State, StoreSound s → StoreLinked s → ChangeServed s → Sys2Proof.Machine.step s = .next t → StoreLinked t

/-- Every step keeps the relations between table entries: no two fitted positions share a station and a place, at most two positions
are airbag-relevant, and no two calibration entries hold the same node id (R2, R158). -/
def Obligations.EveryStepKeepsTheTablesConsistent : Prop :=
  ∀ s t : State, TablesSound s → Sys2Proof.Machine.step s = .next t → TablesSound t

/-- Every step keeps the suppression state of each position following its committed class, and OU and VP informed of positions A and
B (R94 to R97, R134, R140); that OU is so after a RESET_RUNTIME too is the model's choice (log entry 41). -/
def Obligations.EveryStepReportsTheSuppressionOfEachClass : Prop :=
  ∀ s t : State, SuppressionFollowsClass s → SuppressionReported s → Sys2Proof.Machine.step s = .next t →
    SuppressionFollowsClass t ∧ SuppressionReported t

/-- In a sound state of a powered part, SUPPRESS is high exactly when there is a position A and its committed class is one that
suppresses; in particular an ADULT at position A leaves it low. In RUN each LAMPg is low, high or in the flash cadence as its group
is OFF, STEADY or FLASHING, and CHIME is high in its owner's cadence with the ignition on; in CONFIG and HOLD an enabled override
gives a line its latched value, and without one CHIME is low and a lamp low in CONFIG and at its held level in HOLD (R94, R123,
R125, R129 to R132, R134). -/
def Obligations.SuppressLineFollowsPositionA : Prop :=
  ∀ s : State, s.power = .on →
    (SuppressionFollowsClass s → SuppressionReported s →
      (s.suppressLine = true ↔ ∃ p : Pos, s.tables.positionA = some p ∧ s.cl[p].committed ≠ .adult ∧ s.cl[p].committed ≠ .unknown)) ∧
    (s.mode = .run →
      (∀ g : Fin 6, (s.ou.groups[g] = .off → s.lampLine g = false) ∧ (s.ou.groups[g] = .steady → s.lampLine g = true) ∧
        (s.ou.groups[g] = .flashing → (s.lampLine g = true ↔
          s.tables.globals.flashStart ≤ s.ou.flash ∧ s.ou.flash < s.tables.globals.flashEnd ∧ s.ou.flash < s.tables.globals.flashTotal))) ∧
      (s.chimeLine = true ↔ ∃ p : Pos, s.ou.owner = some p ∧ (s.vp.powerMode = .run ∨ s.vp.powerMode = .crank) ∧
        (s.profileOf p).chimeStart ≤ s.ou.chime ∧ s.ou.chime < (s.profileOf p).chimeEnd ∧ s.ou.chime < (s.profileOf p).chimeTotal)) ∧
    (s.mode ≠ .run →
      (∀ (g : Fin 6) (o : Fin 7), o.val = g.val → s.lampLine g =
        if s.ou.overrides[o].enable = true then s.ou.overrides[o].latched
        else if s.mode = .hold then s.ou.held[g] else false) ∧
      s.chimeLine = if s.ou.overrides[6].enable = true then s.ou.overrides[6].latched else false)

/-- Every step keeps VP's report contents, and OU's copies of the reminder states, equal to what CL and RU hold; and, where reminders
are INACTIVE in CONFIG, it keeps OU's lamp groups and chime owner those that the reminder states give: a group FLASHING with a
position in STAGE_2, else STEADY with one in STAGE_1 or EXPIRED, else OFF; the owner the STAGE_2 position of highest chime priority,
the lowest index among equals (R95, R122 to R124, R127, R140). -/
def Obligations.EveryStepKeepsTheReportsCurrent : Prop :=
  (∀ s t : State, ReportsFollow s → CopiesFollow s → Sys2Proof.Machine.step s = .next t → ReportsFollow t ∧ CopiesFollow t) ∧
  (∀ s t : State, GroupsFollow s → CopiesFollow s → RemindersClosed s → Sys2Proof.Machine.step s = .next t → GroupsFollow t) ∧
  ∀ s : State, CopiesFollow s →
    (∀ g : Fin 6,
      let some' := fun test : Reminder → Prop => ∃ p : Pos, (s.entry p).lampGroup = some g ∧ test s.ru.records[p].state
      (s.groupState g = .flashing ↔ some' (· = .stage2)) ∧
      (s.groupState g = .steady ↔ ¬ some' (· = .stage2) ∧ some' fun r => r = .stage1 ∨ r = .expired)) ∧
    (∀ p : Pos, s.chimeOwner = some p ↔ s.ru.records[p].state = .stage2 ∧ ∀ q : Pos, s.ru.records[q].state = .stage2 →
      (s.entry q).chimePriority ≤ (s.entry p).chimePriority ∧ ((s.entry q).chimePriority = (s.entry p).chimePriority → p ≤ q))

/-- Every step keeps every reminder INACTIVE in CONFIG and with the ignition off, and the ignition-on counter at 0 with the ignition
off; and it keeps each field of a reminder record in use only in the states that use it (R103, R108, R110). -/
def Obligations.EveryStepKeepsTheRemindersSound : Prop :=
  (∀ s t : State, RemindersClosed s → Sys2Proof.Machine.step s = .next t → RemindersClosed t) ∧
  ∀ s t : State, RecordsSound s → Sys2Proof.Machine.step s = .next t → RecordsSound t

/-- Every step keeps the On-Demand Queue at most four stations long with none twice, the Event Queue at most sixteen records long and
empty while the EVENT slot is empty, VP's counts in their ranges, and every change of mode in progress served by MU. It keeps each
position at most once in the Evaluation Queue, and scheduled exactly while it is queued or under evaluation (R43, R56, R139, R141 to
R145, R148, R167). -/
def Obligations.EveryStepKeepsTheQueuesBounded : Prop :=
  (∀ s t : State, OnDemandSound s → EventsSound s → PortSound s → ChangeServed s → Sys2Proof.Machine.step s = .next t →
    OnDemandSound t ∧ EventsSound t ∧ PortSound t ∧ ChangeServed t) ∧
  ∀ s t : State, EvaluationQueueSound s → Sys2Proof.Machine.step s = .next t → EvaluationQueueSound t

/-- The state after reset keeps every promise. -/
def Obligations.ResetStateIsSound : Prop :=
  StoreSound State.reset ∧ TablesSound State.reset ∧ SuppressionFollowsClass State.reset ∧ SuppressionReported State.reset ∧
  ReportsFollow State.reset ∧ CopiesFollow State.reset ∧ RemindersClosed State.reset ∧ RecordsSound State.reset ∧
  OnDemandSound State.reset ∧ EventsSound State.reset ∧ PortSound State.reset ∧ ChangeServed State.reset ∧
  StoreLinked State.reset ∧ GroupsFollow State.reset ∧ EvaluationQueueSound State.reset

end
end

