-- ==== Sys2Proof/Laws/State.lean ====
section
/-! SUPPORT. Small lemmas about the state's shapes: updates by index, runs over lists, outcomes. -/

namespace Sys2Proof.Machine

/-! ## Runs over lists -/

/-- What every step of a run leaves alone, the run leaves alone. -/
theorem forEach_keeps {α σ β : Type} (g : σ → β) (xs : List α) (f : α → σ → σ) (s : σ)
    (h : ∀ x t, g (f x t) = g t) : g (forEach xs f s) = g s := by
  unfold forEach
  induction xs generalizing s with
  | nil => rfl
  | cons x xs ih => simp only [List.foldl_cons]; rw [ih, h]

/-- What every step of a fold leaves alone, the fold leaves alone. -/
theorem foldl_keeps {α σ β : Type} (g : σ → β) (xs : List α) (f : σ → α → σ) (s : σ)
    (h : ∀ t x, g (f t x) = g t) : g (xs.foldl f s) = g s := by
  induction xs generalizing s with
  | nil => rfl
  | cons x xs ih => simp only [List.foldl_cons]; rw [ih, h]

/-- A promise that every step of a run keeps holds after the run. -/
theorem forEach_induction {α σ : Type} (P : σ → Prop) (xs : List α) (f : α → σ → σ) (s : σ) (hs : P s)
    (h : ∀ x t, P t → P (f x t)) : P (forEach xs f s) := by
  unfold forEach
  induction xs generalizing s with
  | nil => exact hs
  | cons x xs ih => exact ih _ (h x s hs)

/-! ## Updates by index -/

/-- Entry `j` after an update at `i`. -/
@[simp] theorem upd_getElem {α : Type} {n : Nat} (v : Vector α n) (i : Fin n) (f : α → α) (j : Nat) (hj : j < n) :
    (upd v i f)[j] = if i.val = j then f v[j] else v[j] := by
  simp only [upd, Vector.getElem_set]
  split
  · next h => subst h; rfl
  · rfl

/-- The updated entry. -/
theorem upd_at {α : Type} {n : Nat} (v : Vector α n) (i : Fin n) (f : α → α) : (upd v i f)[i] = f v[i] := by
  simp

/-- Any other entry. -/
theorem upd_elsewhere {α : Type} {n : Nat} (v : Vector α n) (i j : Fin n) (f : α → α) (h : i ≠ j) :
    (upd v i f)[j] = v[j] := by
  have : ¬ i.val = j.val := fun e => h (Fin.ext e)
  simp [this]

/-- Every position is in the list of positions. -/
theorem mem_allPos (p : Pos) : p ∈ allPos := by revert p; decide

/-! ## Outcomes -/

/-- What a command given at its moment, or at another, answers. -/
theorem occurs_next {s t u : State} {due : Bool} (h : occurs s due t = .next u) :
    u = if s.running && due then t else s := by
  simpa [occurs] using h.symm

@[simp] theorem occurs_due {s t : State} {due : Bool} (hr : s.power = .on) (hd : due = true) :
    occurs s due t = .next t := by
  simp [occurs, State.running, hr, hd]

theorem occurs_otherwise {s t : State} {due : Bool} (h : s.running = false ∨ due = false) : occurs s due t = .next s := by
  unfold occurs
  rcases h with h | h <;> simp [h]

/-- A promise that both the state and its successor keep holds after the command. -/
theorem occurs_induction (P : State → Prop) {s t u : State} {due : Bool} (hs : P s) (ht : s.running = true → due = true → P t)
    (h : occurs s due t = .next u) : P u := by
  rw [occurs_next h]
  split
  · next hd => simp only [Bool.and_eq_true] at hd; exact ht hd.1 hd.2
  · exact hs

end Sys2Proof.Machine
end

