-- ==== Sys2Proof/Laws/FramesReports.lean ====
section
/-! SUPPORT. Which fields of the state the operations of Ops.lean, Flags.lean and Output.lean leave alone. -/

namespace Sys2Proof.Machine

@[simp] theorem queueEvent_frame (s : State) (k : EventKind) (a b c : Byte) :
    (s.queueEvent k a b c).power = s.power ∧
    (s.queueEvent k a b c).mode = s.mode ∧
    (s.queueEvent k a b c).change = s.change ∧
    (s.queueEvent k a b c).tb = s.tb ∧
    (s.queueEvent k a b c).ps = s.ps ∧
    (s.queueEvent k a b c).lc = s.lc ∧
    (s.queueEvent k a b c).sm = s.sm ∧
    (s.queueEvent k a b c).ss = s.ss ∧
    (s.queueEvent k a b c).we = s.we ∧
    (s.queueEvent k a b c).cl = s.cl ∧
    (s.queueEvent k a b c).ru = s.ru ∧
    (s.queueEvent k a b c).ou = s.ou ∧
    (s.queueEvent k a b c).mu = s.mu ∧
    (s.queueEvent k a b c).tables = s.tables ∧
    (s.queueEvent k a b c).pending = s.pending := ⟨rfl, rfl, rfl, rfl, rfl, rfl, rfl, rfl, rfl, rfl, rfl, rfl, rfl, rfl, rfl⟩

@[simp] theorem stationEvent_frame (s : State) (k : EventKind) (st : Station) (b c : Byte) :
    (s.stationEvent k st b c).power = s.power ∧
    (s.stationEvent k st b c).mode = s.mode ∧
    (s.stationEvent k st b c).change = s.change ∧
    (s.stationEvent k st b c).tb = s.tb ∧
    (s.stationEvent k st b c).ps = s.ps ∧
    (s.stationEvent k st b c).lc = s.lc ∧
    (s.stationEvent k st b c).sm = s.sm ∧
    (s.stationEvent k st b c).ss = s.ss ∧
    (s.stationEvent k st b c).we = s.we ∧
    (s.stationEvent k st b c).cl = s.cl ∧
    (s.stationEvent k st b c).ru = s.ru ∧
    (s.stationEvent k st b c).ou = s.ou ∧
    (s.stationEvent k st b c).mu = s.mu ∧
    (s.stationEvent k st b c).tables = s.tables ∧
    (s.stationEvent k st b c).pending = s.pending := ⟨rfl, rfl, rfl, rfl, rfl, rfl, rfl, rfl, rfl, rfl, rfl, rfl, rfl, rfl, rfl⟩

@[simp] theorem positionEvent_frame (s : State) (k : EventKind) (p : Pos) (b c : Byte) :
    (s.positionEvent k p b c).power = s.power ∧
    (s.positionEvent k p b c).mode = s.mode ∧
    (s.positionEvent k p b c).change = s.change ∧
    (s.positionEvent k p b c).tb = s.tb ∧
    (s.positionEvent k p b c).ps = s.ps ∧
    (s.positionEvent k p b c).lc = s.lc ∧
    (s.positionEvent k p b c).sm = s.sm ∧
    (s.positionEvent k p b c).ss = s.ss ∧
    (s.positionEvent k p b c).we = s.we ∧
    (s.positionEvent k p b c).cl = s.cl ∧
    (s.positionEvent k p b c).ru = s.ru ∧
    (s.positionEvent k p b c).ou = s.ou ∧
    (s.positionEvent k p b c).mu = s.mu ∧
    (s.positionEvent k p b c).tables = s.tables ∧
    (s.positionEvent k p b c).pending = s.pending := ⟨rfl, rfl, rfl, rfl, rfl, rfl, rfl, rfl, rfl, rfl, rfl, rfl, rfl, rfl, rfl⟩

@[simp] theorem enterMode_frame (s : State) (m : Mode) :
    (s.enterMode m).power = s.power ∧
    (s.enterMode m).change = s.change ∧
    (s.enterMode m).tb = s.tb ∧
    (s.enterMode m).ps = s.ps ∧
    (s.enterMode m).lc = s.lc ∧
    (s.enterMode m).sm = s.sm ∧
    (s.enterMode m).ss = s.ss ∧
    (s.enterMode m).we = s.we ∧
    (s.enterMode m).cl = s.cl ∧
    (s.enterMode m).ru = s.ru ∧
    (s.enterMode m).ou = s.ou ∧
    (s.enterMode m).mu = s.mu ∧
    (s.enterMode m).tables = s.tables ∧
    (s.enterMode m).pending = s.pending := ⟨rfl, rfl, rfl, rfl, rfl, rfl, rfl, rfl, rfl, rfl, rfl, rfl, rfl, rfl⟩

@[simp] theorem handClass_frame (s : State) (p : Pos) (c : Cls) :
    (s.handClass p c).power = s.power ∧
    (s.handClass p c).mode = s.mode ∧
    (s.handClass p c).change = s.change ∧
    (s.handClass p c).tb = s.tb ∧
    (s.handClass p c).ps = s.ps ∧
    (s.handClass p c).lc = s.lc ∧
    (s.handClass p c).sm = s.sm ∧
    (s.handClass p c).ss = s.ss ∧
    (s.handClass p c).we = s.we ∧
    (s.handClass p c).cl = s.cl ∧
    (s.handClass p c).ru = s.ru ∧
    (s.handClass p c).ou = s.ou ∧
    (s.handClass p c).mu = s.mu ∧
    (s.handClass p c).tables = s.tables ∧
    (s.handClass p c).pending = s.pending := ⟨rfl, rfl, rfl, rfl, rfl, rfl, rfl, rfl, rfl, rfl, rfl, rfl, rfl, rfl, rfl⟩

@[simp] theorem handBelt_frame (s : State) (p : Pos) (b : BeltContent) :
    (s.handBelt p b).power = s.power ∧
    (s.handBelt p b).mode = s.mode ∧
    (s.handBelt p b).change = s.change ∧
    (s.handBelt p b).tb = s.tb ∧
    (s.handBelt p b).ps = s.ps ∧
    (s.handBelt p b).lc = s.lc ∧
    (s.handBelt p b).sm = s.sm ∧
    (s.handBelt p b).ss = s.ss ∧
    (s.handBelt p b).we = s.we ∧
    (s.handBelt p b).cl = s.cl ∧
    (s.handBelt p b).ru = s.ru ∧
    (s.handBelt p b).ou = s.ou ∧
    (s.handBelt p b).mu = s.mu ∧
    (s.handBelt p b).tables = s.tables ∧
    (s.handBelt p b).pending = s.pending := ⟨rfl, rfl, rfl, rfl, rfl, rfl, rfl, rfl, rfl, rfl, rfl, rfl, rfl, rfl, rfl⟩

@[simp] theorem handQuality_frame (s : State) (p : Pos) (q : Quality) :
    (s.handQuality p q).power = s.power ∧
    (s.handQuality p q).mode = s.mode ∧
    (s.handQuality p q).change = s.change ∧
    (s.handQuality p q).tb = s.tb ∧
    (s.handQuality p q).ps = s.ps ∧
    (s.handQuality p q).lc = s.lc ∧
    (s.handQuality p q).sm = s.sm ∧
    (s.handQuality p q).ss = s.ss ∧
    (s.handQuality p q).we = s.we ∧
    (s.handQuality p q).cl = s.cl ∧
    (s.handQuality p q).ru = s.ru ∧
    (s.handQuality p q).ou = s.ou ∧
    (s.handQuality p q).mu = s.mu ∧
    (s.handQuality p q).tables = s.tables ∧
    (s.handQuality p q).pending = s.pending := ⟨rfl, rfl, rfl, rfl, rfl, rfl, rfl, rfl, rfl, rfl, rfl, rfl, rfl, rfl, rfl⟩

@[simp] theorem setQuality_frame (s : State) (p : Pos) (f : Quality → Quality) :
    (s.setQuality p f).power = s.power ∧
    (s.setQuality p f).mode = s.mode ∧
    (s.setQuality p f).change = s.change ∧
    (s.setQuality p f).tb = s.tb ∧
    (s.setQuality p f).ps = s.ps ∧
    (s.setQuality p f).lc = s.lc ∧
    (s.setQuality p f).sm = s.sm ∧
    (s.setQuality p f).ss = s.ss ∧
    (s.setQuality p f).we = s.we ∧
    (s.setQuality p f).ru = s.ru ∧
    (s.setQuality p f).ou = s.ou ∧
    (s.setQuality p f).mu = s.mu ∧
    (s.setQuality p f).tables = s.tables ∧
    (s.setQuality p f).pending = s.pending := ⟨rfl, rfl, rfl, rfl, rfl, rfl, rfl, rfl, rfl, rfl, rfl, rfl, rfl, rfl⟩

@[simp] theorem deriveGroup_frame (s : State) (g : Fin 6) :
    (s.deriveGroup g).power = s.power ∧
    (s.deriveGroup g).mode = s.mode ∧
    (s.deriveGroup g).change = s.change ∧
    (s.deriveGroup g).tb = s.tb ∧
    (s.deriveGroup g).ps = s.ps ∧
    (s.deriveGroup g).lc = s.lc ∧
    (s.deriveGroup g).sm = s.sm ∧
    (s.deriveGroup g).ss = s.ss ∧
    (s.deriveGroup g).we = s.we ∧
    (s.deriveGroup g).cl = s.cl ∧
    (s.deriveGroup g).ru = s.ru ∧
    (s.deriveGroup g).vp = s.vp ∧
    (s.deriveGroup g).mu = s.mu ∧
    (s.deriveGroup g).tables = s.tables ∧
    (s.deriveGroup g).pending = s.pending := by
  have h : (fun t : State => (t.power, t.mode, t.change, t.tb, t.ps, t.lc, t.sm, t.ss, t.we, t.cl, t.ru, t.vp, t.mu, t.tables, t.pending)) (s.deriveGroup g) = (fun t : State => (t.power, t.mode, t.change, t.tb, t.ps, t.lc, t.sm, t.ss, t.we, t.cl, t.ru, t.vp, t.mu, t.tables, t.pending)) s := by
    unfold State.deriveGroup; dsimp only; (repeat' split) <;> simp
  simpa using h

@[simp] theorem deriveOwner_frame (s : State) :
    (s.deriveOwner).power = s.power ∧
    (s.deriveOwner).mode = s.mode ∧
    (s.deriveOwner).change = s.change ∧
    (s.deriveOwner).tb = s.tb ∧
    (s.deriveOwner).ps = s.ps ∧
    (s.deriveOwner).lc = s.lc ∧
    (s.deriveOwner).sm = s.sm ∧
    (s.deriveOwner).ss = s.ss ∧
    (s.deriveOwner).we = s.we ∧
    (s.deriveOwner).cl = s.cl ∧
    (s.deriveOwner).ru = s.ru ∧
    (s.deriveOwner).vp = s.vp ∧
    (s.deriveOwner).mu = s.mu ∧
    (s.deriveOwner).tables = s.tables ∧
    (s.deriveOwner).pending = s.pending := by
  have h : (fun t : State => (t.power, t.mode, t.change, t.tb, t.ps, t.lc, t.sm, t.ss, t.we, t.cl, t.ru, t.vp, t.mu, t.tables, t.pending)) (s.deriveOwner) = (fun t : State => (t.power, t.mode, t.change, t.tb, t.ps, t.lc, t.sm, t.ss, t.we, t.cl, t.ru, t.vp, t.mu, t.tables, t.pending)) s := by
    unfold State.deriveOwner; dsimp only; (repeat' split) <;> simp
  simpa using h

@[simp] theorem handReminder_frame (s : State) (p : Pos) (r : Reminder) :
    (s.handReminder p r).power = s.power ∧
    (s.handReminder p r).mode = s.mode ∧
    (s.handReminder p r).change = s.change ∧
    (s.handReminder p r).tb = s.tb ∧
    (s.handReminder p r).ps = s.ps ∧
    (s.handReminder p r).lc = s.lc ∧
    (s.handReminder p r).sm = s.sm ∧
    (s.handReminder p r).ss = s.ss ∧
    (s.handReminder p r).we = s.we ∧
    (s.handReminder p r).cl = s.cl ∧
    (s.handReminder p r).ru = s.ru ∧
    (s.handReminder p r).vp = s.vp ∧
    (s.handReminder p r).mu = s.mu ∧
    (s.handReminder p r).tables = s.tables ∧
    (s.handReminder p r).pending = s.pending := by
  have h : (fun t : State => (t.power, t.mode, t.change, t.tb, t.ps, t.lc, t.sm, t.ss, t.we, t.cl, t.ru, t.vp, t.mu, t.tables, t.pending)) (s.handReminder p r) = (fun t : State => (t.power, t.mode, t.change, t.tb, t.ps, t.lc, t.sm, t.ss, t.we, t.cl, t.ru, t.vp, t.mu, t.tables, t.pending)) s := by
    unfold State.handReminder; dsimp only; split <;> simp
  simpa using h

@[simp] theorem outputTick_frame (s : State) (v : Time) :
    (s.outputTick v).power = s.power ∧
    (s.outputTick v).mode = s.mode ∧
    (s.outputTick v).change = s.change ∧
    (s.outputTick v).tb = s.tb ∧
    (s.outputTick v).ps = s.ps ∧
    (s.outputTick v).lc = s.lc ∧
    (s.outputTick v).sm = s.sm ∧
    (s.outputTick v).ss = s.ss ∧
    (s.outputTick v).we = s.we ∧
    (s.outputTick v).cl = s.cl ∧
    (s.outputTick v).ru = s.ru ∧
    (s.outputTick v).vp = s.vp ∧
    (s.outputTick v).mu = s.mu ∧
    (s.outputTick v).tables = s.tables ∧
    (s.outputTick v).pending = s.pending := by
  have h : (fun t : State => (t.power, t.mode, t.change, t.tb, t.ps, t.lc, t.sm, t.ss, t.we, t.cl, t.ru, t.vp, t.mu, t.tables, t.pending)) (s.outputTick v) = (fun t : State => (t.power, t.mode, t.change, t.tb, t.ps, t.lc, t.sm, t.ss, t.we, t.cl, t.ru, t.vp, t.mu, t.tables, t.pending)) s := by
    unfold State.outputTick; dsimp only; split <;> simp
  simpa using h

@[simp] theorem holdLamps_frame (s : State) :
    (s.holdLamps).power = s.power ∧
    (s.holdLamps).mode = s.mode ∧
    (s.holdLamps).change = s.change ∧
    (s.holdLamps).tb = s.tb ∧
    (s.holdLamps).ps = s.ps ∧
    (s.holdLamps).lc = s.lc ∧
    (s.holdLamps).sm = s.sm ∧
    (s.holdLamps).ss = s.ss ∧
    (s.holdLamps).we = s.we ∧
    (s.holdLamps).cl = s.cl ∧
    (s.holdLamps).ru = s.ru ∧
    (s.holdLamps).vp = s.vp ∧
    (s.holdLamps).mu = s.mu ∧
    (s.holdLamps).tables = s.tables ∧
    (s.holdLamps).pending = s.pending := ⟨rfl, rfl, rfl, rfl, rfl, rfl, rfl, rfl, rfl, rfl, rfl, rfl, rfl, rfl, rfl⟩

end Sys2Proof.Machine
end

