-- ==== Sys2Proof/Laws/FramesReminders.lean ====
section
/-! SUPPORT. Which fields of the state the Reminder Unit's operations leave alone. -/

namespace Sys2Proof.Machine

@[simp] theorem giveBelt_frame (s : State) (p : Pos) :
    (s.giveBelt p).power = s.power ∧
    (s.giveBelt p).mode = s.mode ∧
    (s.giveBelt p).change = s.change ∧
    (s.giveBelt p).tb = s.tb ∧
    (s.giveBelt p).ps = s.ps ∧
    (s.giveBelt p).lc = s.lc ∧
    (s.giveBelt p).sm = s.sm ∧
    (s.giveBelt p).ss = s.ss ∧
    (s.giveBelt p).we = s.we ∧
    (s.giveBelt p).cl = s.cl ∧
    (s.giveBelt p).ru = s.ru ∧
    (s.giveBelt p).ou = s.ou ∧
    (s.giveBelt p).mu = s.mu ∧
    (s.giveBelt p).tables = s.tables ∧
    (s.giveBelt p).pending = s.pending := ⟨rfl, rfl, rfl, rfl, rfl, rfl, rfl, rfl, rfl, rfl, rfl, rfl, rfl, rfl, rfl⟩

@[simp] theorem putRecord_frame (s : State) (p : Pos) (r : ReminderRecord) :
    (s.putRecord p r).power = s.power ∧
    (s.putRecord p r).mode = s.mode ∧
    (s.putRecord p r).change = s.change ∧
    (s.putRecord p r).tb = s.tb ∧
    (s.putRecord p r).ps = s.ps ∧
    (s.putRecord p r).lc = s.lc ∧
    (s.putRecord p r).sm = s.sm ∧
    (s.putRecord p r).ss = s.ss ∧
    (s.putRecord p r).we = s.we ∧
    (s.putRecord p r).cl = s.cl ∧
    (s.putRecord p r).mu = s.mu ∧
    (s.putRecord p r).tables = s.tables ∧
    (s.putRecord p r).pending = s.pending := by
  have h : (fun t : State => (t.power, t.mode, t.change, t.tb, t.ps, t.lc, t.sm, t.ss, t.we, t.cl, t.mu, t.tables, t.pending)) (s.putRecord p r) = (fun t : State => (t.power, t.mode, t.change, t.tb, t.ps, t.lc, t.sm, t.ss, t.we, t.cl, t.mu, t.tables, t.pending)) s := by
    unfold State.putRecord; dsimp only; split <;> simp
  simpa using h

@[simp] theorem putBuckle_frame (s : State) (p : Pos) (b : Buckle) :
    (s.putBuckle p b).power = s.power ∧
    (s.putBuckle p b).mode = s.mode ∧
    (s.putBuckle p b).change = s.change ∧
    (s.putBuckle p b).tb = s.tb ∧
    (s.putBuckle p b).ps = s.ps ∧
    (s.putBuckle p b).lc = s.lc ∧
    (s.putBuckle p b).sm = s.sm ∧
    (s.putBuckle p b).ss = s.ss ∧
    (s.putBuckle p b).we = s.we ∧
    (s.putBuckle p b).cl = s.cl ∧
    (s.putBuckle p b).ou = s.ou ∧
    (s.putBuckle p b).mu = s.mu ∧
    (s.putBuckle p b).tables = s.tables ∧
    (s.putBuckle p b).pending = s.pending := by
  have h : (fun t : State => (t.power, t.mode, t.change, t.tb, t.ps, t.lc, t.sm, t.ss, t.we, t.cl, t.ou, t.mu, t.tables, t.pending)) (s.putBuckle p b) = (fun t : State => (t.power, t.mode, t.change, t.tb, t.ps, t.lc, t.sm, t.ss, t.we, t.cl, t.ou, t.mu, t.tables, t.pending)) s := by
    unfold State.putBuckle; dsimp only; split <;> simp
  simpa using h

@[simp] theorem moveToStage1_frame (s : State) (p : Pos) :
    (s.moveToStage1 p).power = s.power ∧
    (s.moveToStage1 p).mode = s.mode ∧
    (s.moveToStage1 p).change = s.change ∧
    (s.moveToStage1 p).tb = s.tb ∧
    (s.moveToStage1 p).ps = s.ps ∧
    (s.moveToStage1 p).lc = s.lc ∧
    (s.moveToStage1 p).sm = s.sm ∧
    (s.moveToStage1 p).ss = s.ss ∧
    (s.moveToStage1 p).we = s.we ∧
    (s.moveToStage1 p).cl = s.cl ∧
    (s.moveToStage1 p).mu = s.mu ∧
    (s.moveToStage1 p).tables = s.tables ∧
    (s.moveToStage1 p).pending = s.pending := by
  have h : (fun t : State => (t.power, t.mode, t.change, t.tb, t.ps, t.lc, t.sm, t.ss, t.we, t.cl, t.mu, t.tables, t.pending)) (s.moveToStage1 p) = (fun t : State => (t.power, t.mode, t.change, t.tb, t.ps, t.lc, t.sm, t.ss, t.we, t.cl, t.mu, t.tables, t.pending)) s := by
    unfold State.moveToStage1; simp
  simpa using h

@[simp] theorem moveToStage2_frame (s : State) (p : Pos) :
    (s.moveToStage2 p).power = s.power ∧
    (s.moveToStage2 p).mode = s.mode ∧
    (s.moveToStage2 p).change = s.change ∧
    (s.moveToStage2 p).tb = s.tb ∧
    (s.moveToStage2 p).ps = s.ps ∧
    (s.moveToStage2 p).lc = s.lc ∧
    (s.moveToStage2 p).sm = s.sm ∧
    (s.moveToStage2 p).ss = s.ss ∧
    (s.moveToStage2 p).we = s.we ∧
    (s.moveToStage2 p).cl = s.cl ∧
    (s.moveToStage2 p).mu = s.mu ∧
    (s.moveToStage2 p).tables = s.tables ∧
    (s.moveToStage2 p).pending = s.pending := by
  have h : (fun t : State => (t.power, t.mode, t.change, t.tb, t.ps, t.lc, t.sm, t.ss, t.we, t.cl, t.mu, t.tables, t.pending)) (s.moveToStage2 p) = (fun t : State => (t.power, t.mode, t.change, t.tb, t.ps, t.lc, t.sm, t.ss, t.we, t.cl, t.mu, t.tables, t.pending)) s := by
    unfold State.moveToStage2; simp
  simpa using h

@[simp] theorem triggerTest_frame (s : State) (p : Pos) :
    (s.triggerTest p).power = s.power ∧
    (s.triggerTest p).mode = s.mode ∧
    (s.triggerTest p).change = s.change ∧
    (s.triggerTest p).tb = s.tb ∧
    (s.triggerTest p).ps = s.ps ∧
    (s.triggerTest p).lc = s.lc ∧
    (s.triggerTest p).sm = s.sm ∧
    (s.triggerTest p).ss = s.ss ∧
    (s.triggerTest p).we = s.we ∧
    (s.triggerTest p).cl = s.cl ∧
    (s.triggerTest p).mu = s.mu ∧
    (s.triggerTest p).tables = s.tables ∧
    (s.triggerTest p).pending = s.pending := by
  have h : (fun t : State => (t.power, t.mode, t.change, t.tb, t.ps, t.lc, t.sm, t.ss, t.we, t.cl, t.mu, t.tables, t.pending)) (s.triggerTest p) = (fun t : State => (t.power, t.mode, t.change, t.tb, t.ps, t.lc, t.sm, t.ss, t.we, t.cl, t.mu, t.tables, t.pending)) s := by
    unfold State.triggerTest; dsimp only; split <;> simp
  simpa using h

@[simp] theorem deadlineTest_frame (s : State) (p : Pos) :
    (s.deadlineTest p).power = s.power ∧
    (s.deadlineTest p).mode = s.mode ∧
    (s.deadlineTest p).change = s.change ∧
    (s.deadlineTest p).tb = s.tb ∧
    (s.deadlineTest p).ps = s.ps ∧
    (s.deadlineTest p).lc = s.lc ∧
    (s.deadlineTest p).sm = s.sm ∧
    (s.deadlineTest p).ss = s.ss ∧
    (s.deadlineTest p).we = s.we ∧
    (s.deadlineTest p).cl = s.cl ∧
    (s.deadlineTest p).mu = s.mu ∧
    (s.deadlineTest p).tables = s.tables ∧
    (s.deadlineTest p).pending = s.pending := by
  have h : (fun t : State => (t.power, t.mode, t.change, t.tb, t.ps, t.lc, t.sm, t.ss, t.we, t.cl, t.mu, t.tables, t.pending)) (s.deadlineTest p) = (fun t : State => (t.power, t.mode, t.change, t.tb, t.ps, t.lc, t.sm, t.ss, t.we, t.cl, t.mu, t.tables, t.pending)) s := by
    unfold State.deadlineTest; dsimp only; split <;> simp
  simpa using h

@[simp] theorem enterPending_frame (s : State) (p : Pos) (r : ReminderRecord) :
    (s.enterPending p r).power = s.power ∧
    (s.enterPending p r).mode = s.mode ∧
    (s.enterPending p r).change = s.change ∧
    (s.enterPending p r).tb = s.tb ∧
    (s.enterPending p r).ps = s.ps ∧
    (s.enterPending p r).lc = s.lc ∧
    (s.enterPending p r).sm = s.sm ∧
    (s.enterPending p r).ss = s.ss ∧
    (s.enterPending p r).we = s.we ∧
    (s.enterPending p r).cl = s.cl ∧
    (s.enterPending p r).mu = s.mu ∧
    (s.enterPending p r).tables = s.tables ∧
    (s.enterPending p r).pending = s.pending := by
  have h : (fun t : State => (t.power, t.mode, t.change, t.tb, t.ps, t.lc, t.sm, t.ss, t.we, t.cl, t.mu, t.tables, t.pending)) (s.enterPending p r) = (fun t : State => (t.power, t.mode, t.change, t.tb, t.ps, t.lc, t.sm, t.ss, t.we, t.cl, t.mu, t.tables, t.pending)) s := by
    unfold State.enterPending; simp
  simpa using h

@[simp] theorem expireStage_frame (s : State) (p : Pos) :
    (s.expireStage p).power = s.power ∧
    (s.expireStage p).mode = s.mode ∧
    (s.expireStage p).change = s.change ∧
    (s.expireStage p).tb = s.tb ∧
    (s.expireStage p).ps = s.ps ∧
    (s.expireStage p).lc = s.lc ∧
    (s.expireStage p).sm = s.sm ∧
    (s.expireStage p).ss = s.ss ∧
    (s.expireStage p).we = s.we ∧
    (s.expireStage p).cl = s.cl ∧
    (s.expireStage p).mu = s.mu ∧
    (s.expireStage p).tables = s.tables ∧
    (s.expireStage p).pending = s.pending := by
  have h : (fun t : State => (t.power, t.mode, t.change, t.tb, t.ps, t.lc, t.sm, t.ss, t.we, t.cl, t.mu, t.tables, t.pending)) (s.expireStage p) = (fun t : State => (t.power, t.mode, t.change, t.tb, t.ps, t.lc, t.sm, t.ss, t.we, t.cl, t.mu, t.tables, t.pending)) s := by
    unfold State.expireStage; dsimp only; split <;> simp
  simpa using h

@[simp] theorem markTriggers_frame (s : State) :
    (s.markTriggers).power = s.power ∧
    (s.markTriggers).mode = s.mode ∧
    (s.markTriggers).change = s.change ∧
    (s.markTriggers).tb = s.tb ∧
    (s.markTriggers).ps = s.ps ∧
    (s.markTriggers).lc = s.lc ∧
    (s.markTriggers).sm = s.sm ∧
    (s.markTriggers).ss = s.ss ∧
    (s.markTriggers).we = s.we ∧
    (s.markTriggers).cl = s.cl ∧
    (s.markTriggers).ou = s.ou ∧
    (s.markTriggers).vp = s.vp ∧
    (s.markTriggers).mu = s.mu ∧
    (s.markTriggers).tables = s.tables ∧
    (s.markTriggers).pending = s.pending := by
  have h : (fun t : State => (t.power, t.mode, t.change, t.tb, t.ps, t.lc, t.sm, t.ss, t.we, t.cl, t.ou, t.vp, t.mu, t.tables, t.pending)) (s.markTriggers) = (fun t : State => (t.power, t.mode, t.change, t.tb, t.ps, t.lc, t.sm, t.ss, t.we, t.cl, t.ou, t.vp, t.mu, t.tables, t.pending)) s := by
    unfold State.markTriggers; simp
  simpa using h

@[simp] theorem speedChange_frame (s : State) :
    (s.speedChange).power = s.power ∧
    (s.speedChange).mode = s.mode ∧
    (s.speedChange).change = s.change ∧
    (s.speedChange).tb = s.tb ∧
    (s.speedChange).ps = s.ps ∧
    (s.speedChange).lc = s.lc ∧
    (s.speedChange).sm = s.sm ∧
    (s.speedChange).ss = s.ss ∧
    (s.speedChange).we = s.we ∧
    (s.speedChange).cl = s.cl ∧
    (s.speedChange).ou = s.ou ∧
    (s.speedChange).vp = s.vp ∧
    (s.speedChange).mu = s.mu ∧
    (s.speedChange).tables = s.tables ∧
    (s.speedChange).pending = s.pending := by
  have h : (fun t : State => (t.power, t.mode, t.change, t.tb, t.ps, t.lc, t.sm, t.ss, t.we, t.cl, t.ou, t.vp, t.mu, t.tables, t.pending)) (s.speedChange) = (fun t : State => (t.power, t.mode, t.change, t.tb, t.ps, t.lc, t.sm, t.ss, t.we, t.cl, t.ou, t.vp, t.mu, t.tables, t.pending)) s := by
    unfold State.speedChange; dsimp only; split <;> simp
  simpa using h

@[simp] theorem reminderTick_frame (s : State) (v : Time) :
    (s.reminderTick v).power = s.power ∧
    (s.reminderTick v).mode = s.mode ∧
    (s.reminderTick v).change = s.change ∧
    (s.reminderTick v).tb = s.tb ∧
    (s.reminderTick v).ps = s.ps ∧
    (s.reminderTick v).lc = s.lc ∧
    (s.reminderTick v).sm = s.sm ∧
    (s.reminderTick v).ss = s.ss ∧
    (s.reminderTick v).we = s.we ∧
    (s.reminderTick v).cl = s.cl ∧
    (s.reminderTick v).ou = s.ou ∧
    (s.reminderTick v).vp = s.vp ∧
    (s.reminderTick v).mu = s.mu ∧
    (s.reminderTick v).tables = s.tables ∧
    (s.reminderTick v).pending = s.pending := by
  have h : (fun t : State => (t.power, t.mode, t.change, t.tb, t.ps, t.lc, t.sm, t.ss, t.we, t.cl, t.ou, t.vp, t.mu, t.tables, t.pending)) (s.reminderTick v) = (fun t : State => (t.power, t.mode, t.change, t.tb, t.ps, t.lc, t.sm, t.ss, t.we, t.cl, t.ou, t.vp, t.mu, t.tables, t.pending)) s := by
    unfold State.reminderTick; simp
  simpa using h

@[simp] theorem takeTrigger_frame (s : State) (p : Pos) :
    (s.takeTrigger p).power = s.power ∧
    (s.takeTrigger p).mode = s.mode ∧
    (s.takeTrigger p).change = s.change ∧
    (s.takeTrigger p).tb = s.tb ∧
    (s.takeTrigger p).ps = s.ps ∧
    (s.takeTrigger p).lc = s.lc ∧
    (s.takeTrigger p).sm = s.sm ∧
    (s.takeTrigger p).ss = s.ss ∧
    (s.takeTrigger p).we = s.we ∧
    (s.takeTrigger p).cl = s.cl ∧
    (s.takeTrigger p).mu = s.mu ∧
    (s.takeTrigger p).tables = s.tables ∧
    (s.takeTrigger p).pending = s.pending := by
  have h : (fun t : State => (t.power, t.mode, t.change, t.tb, t.ps, t.lc, t.sm, t.ss, t.we, t.cl, t.mu, t.tables, t.pending)) (s.takeTrigger p) = (fun t : State => (t.power, t.mode, t.change, t.tb, t.ps, t.lc, t.sm, t.ss, t.we, t.cl, t.mu, t.tables, t.pending)) s := by
    unfold State.takeTrigger; dsimp only; split <;> simp
  simpa using h

@[simp] theorem takeExpiry_frame (s : State) (p : Pos) :
    (s.takeExpiry p).power = s.power ∧
    (s.takeExpiry p).mode = s.mode ∧
    (s.takeExpiry p).change = s.change ∧
    (s.takeExpiry p).tb = s.tb ∧
    (s.takeExpiry p).ps = s.ps ∧
    (s.takeExpiry p).lc = s.lc ∧
    (s.takeExpiry p).sm = s.sm ∧
    (s.takeExpiry p).ss = s.ss ∧
    (s.takeExpiry p).we = s.we ∧
    (s.takeExpiry p).cl = s.cl ∧
    (s.takeExpiry p).mu = s.mu ∧
    (s.takeExpiry p).tables = s.tables ∧
    (s.takeExpiry p).pending = s.pending := by
  have h : (fun t : State => (t.power, t.mode, t.change, t.tb, t.ps, t.lc, t.sm, t.ss, t.we, t.cl, t.mu, t.tables, t.pending)) (s.takeExpiry p) = (fun t : State => (t.power, t.mode, t.change, t.tb, t.ps, t.lc, t.sm, t.ss, t.we, t.cl, t.mu, t.tables, t.pending)) s := by
    unfold State.takeExpiry; dsimp only; split <;> simp
  simpa using h

@[simp] theorem takeDueMoves_frame (s : State) :
    (s.takeDueMoves).power = s.power ∧
    (s.takeDueMoves).mode = s.mode ∧
    (s.takeDueMoves).change = s.change ∧
    (s.takeDueMoves).tb = s.tb ∧
    (s.takeDueMoves).ps = s.ps ∧
    (s.takeDueMoves).lc = s.lc ∧
    (s.takeDueMoves).sm = s.sm ∧
    (s.takeDueMoves).ss = s.ss ∧
    (s.takeDueMoves).we = s.we ∧
    (s.takeDueMoves).cl = s.cl ∧
    (s.takeDueMoves).mu = s.mu ∧
    (s.takeDueMoves).tables = s.tables ∧
    (s.takeDueMoves).pending = s.pending := by
  have h := forEach_keeps (fun t : State => (t.power, t.mode, t.change, t.tb, t.ps, t.lc, t.sm, t.ss, t.we, t.cl, t.mu, t.tables, t.pending))
    allPos (fun p t => (t.takeTrigger p).takeExpiry p) s (by intro x t; simp)
  unfold State.takeDueMoves
  simpa using h

@[simp] theorem latch_frame (s : State) (p : Pos) :
    (s.latch p).power = s.power ∧
    (s.latch p).mode = s.mode ∧
    (s.latch p).change = s.change ∧
    (s.latch p).tb = s.tb ∧
    (s.latch p).ps = s.ps ∧
    (s.latch p).lc = s.lc ∧
    (s.latch p).sm = s.sm ∧
    (s.latch p).ss = s.ss ∧
    (s.latch p).we = s.we ∧
    (s.latch p).cl = s.cl ∧
    (s.latch p).mu = s.mu ∧
    (s.latch p).tables = s.tables ∧
    (s.latch p).pending = s.pending := by
  have h : (fun t : State => (t.power, t.mode, t.change, t.tb, t.ps, t.lc, t.sm, t.ss, t.we, t.cl, t.mu, t.tables, t.pending)) (s.latch p) = (fun t : State => (t.power, t.mode, t.change, t.tb, t.ps, t.lc, t.sm, t.ss, t.we, t.cl, t.mu, t.tables, t.pending)) s := by
    unfold State.latch; dsimp only; (repeat' split) <;> simp
  simpa using h

@[simp] theorem unlatch_frame (s : State) (p : Pos) :
    (s.unlatch p).power = s.power ∧
    (s.unlatch p).mode = s.mode ∧
    (s.unlatch p).change = s.change ∧
    (s.unlatch p).tb = s.tb ∧
    (s.unlatch p).ps = s.ps ∧
    (s.unlatch p).lc = s.lc ∧
    (s.unlatch p).sm = s.sm ∧
    (s.unlatch p).ss = s.ss ∧
    (s.unlatch p).we = s.we ∧
    (s.unlatch p).cl = s.cl ∧
    (s.unlatch p).mu = s.mu ∧
    (s.unlatch p).tables = s.tables ∧
    (s.unlatch p).pending = s.pending := by
  have h : (fun t : State => (t.power, t.mode, t.change, t.tb, t.ps, t.lc, t.sm, t.ss, t.we, t.cl, t.mu, t.tables, t.pending)) (s.unlatch p) = (fun t : State => (t.power, t.mode, t.change, t.tb, t.ps, t.lc, t.sm, t.ss, t.we, t.cl, t.mu, t.tables, t.pending)) s := by
    unfold State.unlatch; dsimp only; (repeat' split) <;> simp
  simpa using h

@[simp] theorem buckleReading_frame (s : State) (p : Pos) (x : Reading) :
    (s.buckleReading p x).power = s.power ∧
    (s.buckleReading p x).mode = s.mode ∧
    (s.buckleReading p x).change = s.change ∧
    (s.buckleReading p x).tb = s.tb ∧
    (s.buckleReading p x).ps = s.ps ∧
    (s.buckleReading p x).lc = s.lc ∧
    (s.buckleReading p x).sm = s.sm ∧
    (s.buckleReading p x).ss = s.ss ∧
    (s.buckleReading p x).we = s.we ∧
    (s.buckleReading p x).cl = s.cl ∧
    (s.buckleReading p x).mu = s.mu ∧
    (s.buckleReading p x).tables = s.tables ∧
    (s.buckleReading p x).pending = s.pending := by
  have h : (fun t : State => (t.power, t.mode, t.change, t.tb, t.ps, t.lc, t.sm, t.ss, t.we, t.cl, t.mu, t.tables, t.pending)) (s.buckleReading p x) = (fun t : State => (t.power, t.mode, t.change, t.tb, t.ps, t.lc, t.sm, t.ss, t.we, t.cl, t.mu, t.tables, t.pending)) s := by
    unfold State.buckleReading; dsimp only; (repeat' split) <;> simp
  simpa using h

@[simp] theorem resetBuckle_frame (s : State) (p : Pos) :
    (s.resetBuckle p).power = s.power ∧
    (s.resetBuckle p).mode = s.mode ∧
    (s.resetBuckle p).change = s.change ∧
    (s.resetBuckle p).tb = s.tb ∧
    (s.resetBuckle p).ps = s.ps ∧
    (s.resetBuckle p).lc = s.lc ∧
    (s.resetBuckle p).sm = s.sm ∧
    (s.resetBuckle p).ss = s.ss ∧
    (s.resetBuckle p).we = s.we ∧
    (s.resetBuckle p).cl = s.cl ∧
    (s.resetBuckle p).ou = s.ou ∧
    (s.resetBuckle p).mu = s.mu ∧
    (s.resetBuckle p).tables = s.tables ∧
    (s.resetBuckle p).pending = s.pending := by
  have h : (fun t : State => (t.power, t.mode, t.change, t.tb, t.ps, t.lc, t.sm, t.ss, t.we, t.cl, t.ou, t.mu, t.tables, t.pending)) (s.resetBuckle p) = (fun t : State => (t.power, t.mode, t.change, t.tb, t.ps, t.lc, t.sm, t.ss, t.we, t.cl, t.ou, t.mu, t.tables, t.pending)) s := by
    unfold State.resetBuckle; simp
  simpa using h

@[simp] theorem becomeApplicable_frame (s : State) (p : Pos) :
    (s.becomeApplicable p).power = s.power ∧
    (s.becomeApplicable p).mode = s.mode ∧
    (s.becomeApplicable p).change = s.change ∧
    (s.becomeApplicable p).tb = s.tb ∧
    (s.becomeApplicable p).ps = s.ps ∧
    (s.becomeApplicable p).lc = s.lc ∧
    (s.becomeApplicable p).sm = s.sm ∧
    (s.becomeApplicable p).ss = s.ss ∧
    (s.becomeApplicable p).we = s.we ∧
    (s.becomeApplicable p).cl = s.cl ∧
    (s.becomeApplicable p).mu = s.mu ∧
    (s.becomeApplicable p).tables = s.tables ∧
    (s.becomeApplicable p).pending = s.pending := by
  have h : (fun t : State => (t.power, t.mode, t.change, t.tb, t.ps, t.lc, t.sm, t.ss, t.we, t.cl, t.mu, t.tables, t.pending)) (s.becomeApplicable p) = (fun t : State => (t.power, t.mode, t.change, t.tb, t.ps, t.lc, t.sm, t.ss, t.we, t.cl, t.mu, t.tables, t.pending)) s := by
    unfold State.becomeApplicable; dsimp only; (repeat' split) <;> simp
  simpa using h

@[simp] theorem reminderUnknown_frame (s : State) (p : Pos) :
    (s.reminderUnknown p).power = s.power ∧
    (s.reminderUnknown p).mode = s.mode ∧
    (s.reminderUnknown p).change = s.change ∧
    (s.reminderUnknown p).tb = s.tb ∧
    (s.reminderUnknown p).ps = s.ps ∧
    (s.reminderUnknown p).lc = s.lc ∧
    (s.reminderUnknown p).sm = s.sm ∧
    (s.reminderUnknown p).ss = s.ss ∧
    (s.reminderUnknown p).we = s.we ∧
    (s.reminderUnknown p).cl = s.cl ∧
    (s.reminderUnknown p).mu = s.mu ∧
    (s.reminderUnknown p).tables = s.tables ∧
    (s.reminderUnknown p).pending = s.pending := by
  have h : (fun t : State => (t.power, t.mode, t.change, t.tb, t.ps, t.lc, t.sm, t.ss, t.we, t.cl, t.mu, t.tables, t.pending)) (s.reminderUnknown p) = (fun t : State => (t.power, t.mode, t.change, t.tb, t.ps, t.lc, t.sm, t.ss, t.we, t.cl, t.mu, t.tables, t.pending)) s := by
    unfold State.reminderUnknown; dsimp only; (repeat' split) <;> simp
  simpa using h

@[simp] theorem resume_frame (s : State) (p : Pos) :
    (s.resume p).power = s.power ∧
    (s.resume p).mode = s.mode ∧
    (s.resume p).change = s.change ∧
    (s.resume p).tb = s.tb ∧
    (s.resume p).ps = s.ps ∧
    (s.resume p).lc = s.lc ∧
    (s.resume p).sm = s.sm ∧
    (s.resume p).ss = s.ss ∧
    (s.resume p).we = s.we ∧
    (s.resume p).cl = s.cl ∧
    (s.resume p).mu = s.mu ∧
    (s.resume p).tables = s.tables ∧
    (s.resume p).pending = s.pending := by
  have h : (fun t : State => (t.power, t.mode, t.change, t.tb, t.ps, t.lc, t.sm, t.ss, t.we, t.cl, t.mu, t.tables, t.pending)) (s.resume p) = (fun t : State => (t.power, t.mode, t.change, t.tb, t.ps, t.lc, t.sm, t.ss, t.we, t.cl, t.mu, t.tables, t.pending)) s := by
    unfold State.resume; dsimp only; (repeat' split) <;> simp
  simpa using h

@[simp] theorem reminderClass_frame (s : State) (p : Pos) (a b : Cls) :
    (s.reminderClass p a b).power = s.power ∧
    (s.reminderClass p a b).mode = s.mode ∧
    (s.reminderClass p a b).change = s.change ∧
    (s.reminderClass p a b).tb = s.tb ∧
    (s.reminderClass p a b).ps = s.ps ∧
    (s.reminderClass p a b).lc = s.lc ∧
    (s.reminderClass p a b).sm = s.sm ∧
    (s.reminderClass p a b).ss = s.ss ∧
    (s.reminderClass p a b).we = s.we ∧
    (s.reminderClass p a b).cl = s.cl ∧
    (s.reminderClass p a b).mu = s.mu ∧
    (s.reminderClass p a b).tables = s.tables ∧
    (s.reminderClass p a b).pending = s.pending := by
  have h : (fun t : State => (t.power, t.mode, t.change, t.tb, t.ps, t.lc, t.sm, t.ss, t.we, t.cl, t.mu, t.tables, t.pending)) (s.reminderClass p a b) = (fun t : State => (t.power, t.mode, t.change, t.tb, t.ps, t.lc, t.sm, t.ss, t.we, t.cl, t.mu, t.tables, t.pending)) s := by
    unfold State.reminderClass; dsimp only; (repeat' split) <;> simp
  simpa using h

@[simp] theorem allInactive_frame (s : State) :
    (s.allInactive).power = s.power ∧
    (s.allInactive).mode = s.mode ∧
    (s.allInactive).change = s.change ∧
    (s.allInactive).tb = s.tb ∧
    (s.allInactive).ps = s.ps ∧
    (s.allInactive).lc = s.lc ∧
    (s.allInactive).sm = s.sm ∧
    (s.allInactive).ss = s.ss ∧
    (s.allInactive).we = s.we ∧
    (s.allInactive).cl = s.cl ∧
    (s.allInactive).mu = s.mu ∧
    (s.allInactive).tables = s.tables ∧
    (s.allInactive).pending = s.pending := by
  have h := forEach_keeps (fun t : State => (t.power, t.mode, t.change, t.tb, t.ps, t.lc, t.sm, t.ss, t.we, t.cl, t.mu, t.tables, t.pending))
    allPos (fun p t => t.putRecord p .toInactive) s (by intro x t; simp)
  unfold State.allInactive
  simpa using h

@[simp] theorem ignitionComesOn_frame (s : State) :
    (s.ignitionComesOn).power = s.power ∧
    (s.ignitionComesOn).mode = s.mode ∧
    (s.ignitionComesOn).change = s.change ∧
    (s.ignitionComesOn).tb = s.tb ∧
    (s.ignitionComesOn).ps = s.ps ∧
    (s.ignitionComesOn).lc = s.lc ∧
    (s.ignitionComesOn).sm = s.sm ∧
    (s.ignitionComesOn).ss = s.ss ∧
    (s.ignitionComesOn).we = s.we ∧
    (s.ignitionComesOn).cl = s.cl ∧
    (s.ignitionComesOn).mu = s.mu ∧
    (s.ignitionComesOn).tables = s.tables ∧
    (s.ignitionComesOn).pending = s.pending := by
  have h := forEach_keeps (fun t : State => (t.power, t.mode, t.change, t.tb, t.ps, t.lc, t.sm, t.ss, t.we, t.cl, t.mu, t.tables, t.pending))
    allPos (fun p u => if u.ru.records[p].state = .inactive ∧ u.applicable p u.cl[p].committed = true then u.becomeApplicable p else u)
    { s with ru := { s.ru with ignitionTime := s.tb.time } } (by intro x t; split <;> simp)
  unfold State.ignitionComesOn
  simpa using h

@[simp] theorem ignitionGoesOff_frame (s : State) :
    (s.ignitionGoesOff).power = s.power ∧
    (s.ignitionGoesOff).mode = s.mode ∧
    (s.ignitionGoesOff).change = s.change ∧
    (s.ignitionGoesOff).tb = s.tb ∧
    (s.ignitionGoesOff).ps = s.ps ∧
    (s.ignitionGoesOff).lc = s.lc ∧
    (s.ignitionGoesOff).sm = s.sm ∧
    (s.ignitionGoesOff).ss = s.ss ∧
    (s.ignitionGoesOff).we = s.we ∧
    (s.ignitionGoesOff).cl = s.cl ∧
    (s.ignitionGoesOff).mu = s.mu ∧
    (s.ignitionGoesOff).tables = s.tables ∧
    (s.ignitionGoesOff).pending = s.pending := by
  have h : (fun t : State => (t.power, t.mode, t.change, t.tb, t.ps, t.lc, t.sm, t.ss, t.we, t.cl, t.mu, t.tables, t.pending)) (s.ignitionGoesOff) = (fun t : State => (t.power, t.mode, t.change, t.tb, t.ps, t.lc, t.sm, t.ss, t.we, t.cl, t.mu, t.tables, t.pending)) s := by
    unfold State.ignitionGoesOff; simp
  simpa using h

end Sys2Proof.Machine
end

