-- ==== Sys2Proof/Laws/FramesClasses.lean ====
section
/-! SUPPORT. Which fields of the state the operations of the Classifier, the Sample Store and the Window Evaluator leave alone. -/

namespace Sys2Proof.Machine

@[simp] theorem giveSuppression_frame (s : State) :
    (s.giveSuppression).power = s.power ∧
    (s.giveSuppression).mode = s.mode ∧
    (s.giveSuppression).change = s.change ∧
    (s.giveSuppression).tb = s.tb ∧
    (s.giveSuppression).ps = s.ps ∧
    (s.giveSuppression).lc = s.lc ∧
    (s.giveSuppression).sm = s.sm ∧
    (s.giveSuppression).ss = s.ss ∧
    (s.giveSuppression).we = s.we ∧
    (s.giveSuppression).cl = s.cl ∧
    (s.giveSuppression).ru = s.ru ∧
    (s.giveSuppression).mu = s.mu ∧
    (s.giveSuppression).tables = s.tables ∧
    (s.giveSuppression).pending = s.pending := ⟨rfl, rfl, rfl, rfl, rfl, rfl, rfl, rfl, rfl, rfl, rfl, rfl, rfl, rfl⟩

@[simp] theorem setClass_frame (s : State) (p : Pos) (c : Cls) :
    (s.setClass p c).power = s.power ∧
    (s.setClass p c).mode = s.mode ∧
    (s.setClass p c).change = s.change ∧
    (s.setClass p c).tb = s.tb ∧
    (s.setClass p c).ps = s.ps ∧
    (s.setClass p c).lc = s.lc ∧
    (s.setClass p c).sm = s.sm ∧
    (s.setClass p c).ss = s.ss ∧
    (s.setClass p c).we = s.we ∧
    (s.setClass p c).mu = s.mu ∧
    (s.setClass p c).tables = s.tables ∧
    (s.setClass p c).pending = s.pending := by
  have h : (fun t : State => (t.power, t.mode, t.change, t.tb, t.ps, t.lc, t.sm, t.ss, t.we, t.mu, t.tables, t.pending)) (s.setClass p c) = (fun t : State => (t.power, t.mode, t.change, t.tb, t.ps, t.lc, t.sm, t.ss, t.we, t.mu, t.tables, t.pending)) s := by
    unfold State.setClass; dsimp only; (repeat' split) <;> simp
  simpa using h

@[simp] theorem updateRough_frame (s : State) (p : Pos) :
    (s.updateRough p).power = s.power ∧
    (s.updateRough p).mode = s.mode ∧
    (s.updateRough p).change = s.change ∧
    (s.updateRough p).tb = s.tb ∧
    (s.updateRough p).ps = s.ps ∧
    (s.updateRough p).lc = s.lc ∧
    (s.updateRough p).sm = s.sm ∧
    (s.updateRough p).ss = s.ss ∧
    (s.updateRough p).we = s.we ∧
    (s.updateRough p).ru = s.ru ∧
    (s.updateRough p).ou = s.ou ∧
    (s.updateRough p).mu = s.mu ∧
    (s.updateRough p).tables = s.tables ∧
    (s.updateRough p).pending = s.pending := by
  have h : (fun t : State => (t.power, t.mode, t.change, t.tb, t.ps, t.lc, t.sm, t.ss, t.we, t.ru, t.ou, t.mu, t.tables, t.pending)) (s.updateRough p) = (fun t : State => (t.power, t.mode, t.change, t.tb, t.ps, t.lc, t.sm, t.ss, t.we, t.ru, t.ou, t.mu, t.tables, t.pending)) s := by
    unfold State.updateRough; simp
  simpa using h

@[simp] theorem classifyDisturbed_frame (s : State) (p : Pos) :
    (s.classifyDisturbed p).power = s.power ∧
    (s.classifyDisturbed p).mode = s.mode ∧
    (s.classifyDisturbed p).change = s.change ∧
    (s.classifyDisturbed p).tb = s.tb ∧
    (s.classifyDisturbed p).ps = s.ps ∧
    (s.classifyDisturbed p).lc = s.lc ∧
    (s.classifyDisturbed p).sm = s.sm ∧
    (s.classifyDisturbed p).ss = s.ss ∧
    (s.classifyDisturbed p).we = s.we ∧
    (s.classifyDisturbed p).ru = s.ru ∧
    (s.classifyDisturbed p).ou = s.ou ∧
    (s.classifyDisturbed p).vp = s.vp ∧
    (s.classifyDisturbed p).mu = s.mu ∧
    (s.classifyDisturbed p).tables = s.tables ∧
    (s.classifyDisturbed p).pending = s.pending := ⟨rfl, rfl, rfl, rfl, rfl, rfl, rfl, rfl, rfl, rfl, rfl, rfl, rfl, rfl, rfl⟩

@[simp] theorem classifyClean_frame (s : State) (p : Pos) (raw : Cls) (c : Nat) :
    (s.classifyClean p raw c).power = s.power ∧
    (s.classifyClean p raw c).mode = s.mode ∧
    (s.classifyClean p raw c).change = s.change ∧
    (s.classifyClean p raw c).tb = s.tb ∧
    (s.classifyClean p raw c).ps = s.ps ∧
    (s.classifyClean p raw c).lc = s.lc ∧
    (s.classifyClean p raw c).sm = s.sm ∧
    (s.classifyClean p raw c).ss = s.ss ∧
    (s.classifyClean p raw c).we = s.we ∧
    (s.classifyClean p raw c).mu = s.mu ∧
    (s.classifyClean p raw c).tables = s.tables ∧
    (s.classifyClean p raw c).pending = s.pending := by
  have h : (fun t : State => (t.power, t.mode, t.change, t.tb, t.ps, t.lc, t.sm, t.ss, t.we, t.mu, t.tables, t.pending)) (s.classifyClean p raw c) = (fun t : State => (t.power, t.mode, t.change, t.tb, t.ps, t.lc, t.sm, t.ss, t.we, t.mu, t.tables, t.pending)) s := by
    unfold State.classifyClean; dsimp only; split <;> simp
  simpa using h

@[simp] theorem classify_frame (s : State) (p : Pos) (b : Thresholds) (w : WindowResult) :
    (s.classify p b w).power = s.power ∧
    (s.classify p b w).mode = s.mode ∧
    (s.classify p b w).change = s.change ∧
    (s.classify p b w).tb = s.tb ∧
    (s.classify p b w).ps = s.ps ∧
    (s.classify p b w).lc = s.lc ∧
    (s.classify p b w).sm = s.sm ∧
    (s.classify p b w).ss = s.ss ∧
    (s.classify p b w).we = s.we ∧
    (s.classify p b w).mu = s.mu ∧
    (s.classify p b w).tables = s.tables ∧
    (s.classify p b w).pending = s.pending := by
  have h : (fun t : State => (t.power, t.mode, t.change, t.tb, t.ps, t.lc, t.sm, t.ss, t.we, t.mu, t.tables, t.pending)) (s.classify p b w) = (fun t : State => (t.power, t.mode, t.change, t.tb, t.ps, t.lc, t.sm, t.ss, t.we, t.mu, t.tables, t.pending)) s := by
    unfold State.classify; dsimp only; (repeat' split) <;> simp
  simpa using h

@[simp] theorem flushClass_frame (s : State) (p : Pos) :
    (s.flushClass p).power = s.power ∧
    (s.flushClass p).mode = s.mode ∧
    (s.flushClass p).change = s.change ∧
    (s.flushClass p).tb = s.tb ∧
    (s.flushClass p).ps = s.ps ∧
    (s.flushClass p).lc = s.lc ∧
    (s.flushClass p).sm = s.sm ∧
    (s.flushClass p).ss = s.ss ∧
    (s.flushClass p).we = s.we ∧
    (s.flushClass p).mu = s.mu ∧
    (s.flushClass p).tables = s.tables ∧
    (s.flushClass p).pending = s.pending := by
  have h : (fun t : State => (t.power, t.mode, t.change, t.tb, t.ps, t.lc, t.sm, t.ss, t.we, t.mu, t.tables, t.pending)) (s.flushClass p) = (fun t : State => (t.power, t.mode, t.change, t.tb, t.ps, t.lc, t.sm, t.ss, t.we, t.mu, t.tables, t.pending)) s := by
    unfold State.flushClass; simp
  simpa using h

@[simp] theorem fittingChange_frame (s : State) (p : Pos) (b : Bool) :
    (s.fittingChange p b).power = s.power ∧
    (s.fittingChange p b).mode = s.mode ∧
    (s.fittingChange p b).change = s.change ∧
    (s.fittingChange p b).tb = s.tb ∧
    (s.fittingChange p b).ps = s.ps ∧
    (s.fittingChange p b).lc = s.lc ∧
    (s.fittingChange p b).sm = s.sm ∧
    (s.fittingChange p b).ss = s.ss ∧
    (s.fittingChange p b).we = s.we ∧
    (s.fittingChange p b).mu = s.mu ∧
    (s.fittingChange p b).tables = s.tables ∧
    (s.fittingChange p b).pending = s.pending := by
  have h : (fun t : State => (t.power, t.mode, t.change, t.tb, t.ps, t.lc, t.sm, t.ss, t.we, t.mu, t.tables, t.pending)) (s.fittingChange p b) = (fun t : State => (t.power, t.mode, t.change, t.tb, t.ps, t.lc, t.sm, t.ss, t.we, t.mu, t.tables, t.pending)) s := by
    unfold State.fittingChange; dsimp only; (repeat' split) <;> simp
  simpa using h

@[simp] theorem scheduleTest_frame (s : State) (p : Pos) :
    (s.scheduleTest p).power = s.power ∧
    (s.scheduleTest p).mode = s.mode ∧
    (s.scheduleTest p).change = s.change ∧
    (s.scheduleTest p).tb = s.tb ∧
    (s.scheduleTest p).ps = s.ps ∧
    (s.scheduleTest p).lc = s.lc ∧
    (s.scheduleTest p).sm = s.sm ∧
    (s.scheduleTest p).we = s.we ∧
    (s.scheduleTest p).cl = s.cl ∧
    (s.scheduleTest p).ru = s.ru ∧
    (s.scheduleTest p).ou = s.ou ∧
    (s.scheduleTest p).vp = s.vp ∧
    (s.scheduleTest p).mu = s.mu ∧
    (s.scheduleTest p).tables = s.tables ∧
    (s.scheduleTest p).pending = s.pending := ⟨rfl, rfl, rfl, rfl, rfl, rfl, rfl, rfl, rfl, rfl, rfl, rfl, rfl, rfl, rfl⟩

@[simp] theorem dropSample_frame (s : State) (p : Pos) :
    (s.dropSample p).power = s.power ∧
    (s.dropSample p).mode = s.mode ∧
    (s.dropSample p).change = s.change ∧
    (s.dropSample p).tb = s.tb ∧
    (s.dropSample p).ps = s.ps ∧
    (s.dropSample p).lc = s.lc ∧
    (s.dropSample p).sm = s.sm ∧
    (s.dropSample p).we = s.we ∧
    (s.dropSample p).ru = s.ru ∧
    (s.dropSample p).ou = s.ou ∧
    (s.dropSample p).mu = s.mu ∧
    (s.dropSample p).tables = s.tables ∧
    (s.dropSample p).pending = s.pending := by
  have h : (fun t : State => (t.power, t.mode, t.change, t.tb, t.ps, t.lc, t.sm, t.we, t.ru, t.ou, t.mu, t.tables, t.pending)) (s.dropSample p) = (fun t : State => (t.power, t.mode, t.change, t.tb, t.ps, t.lc, t.sm, t.we, t.ru, t.ou, t.mu, t.tables, t.pending)) s := by
    unfold State.dropSample; dsimp only; (repeat' split) <;> simp
  simpa using h

@[simp] theorem arrive_frame (s : State) (p : Pos) (x : PlaceSample) :
    (s.arrive p x).power = s.power ∧
    (s.arrive p x).mode = s.mode ∧
    (s.arrive p x).change = s.change ∧
    (s.arrive p x).tb = s.tb ∧
    (s.arrive p x).ps = s.ps ∧
    (s.arrive p x).lc = s.lc ∧
    (s.arrive p x).sm = s.sm ∧
    (s.arrive p x).we = s.we ∧
    (s.arrive p x).ru = s.ru ∧
    (s.arrive p x).ou = s.ou ∧
    (s.arrive p x).mu = s.mu ∧
    (s.arrive p x).tables = s.tables ∧
    (s.arrive p x).pending = s.pending := by
  have h : (fun t : State => (t.power, t.mode, t.change, t.tb, t.ps, t.lc, t.sm, t.we, t.ru, t.ou, t.mu, t.tables, t.pending)) (s.arrive p x) = (fun t : State => (t.power, t.mode, t.change, t.tb, t.ps, t.lc, t.sm, t.we, t.ru, t.ou, t.mu, t.tables, t.pending)) s := by
    unfold State.arrive; dsimp only; (repeat' split) <;> simp
  simpa using h

@[simp] theorem flush_frame (s : State) (p : Pos) (b : Bool) :
    (s.flush p b).power = s.power ∧
    (s.flush p b).mode = s.mode ∧
    (s.flush p b).change = s.change ∧
    (s.flush p b).tb = s.tb ∧
    (s.flush p b).ps = s.ps ∧
    (s.flush p b).lc = s.lc ∧
    (s.flush p b).sm = s.sm ∧
    (s.flush p b).we = s.we ∧
    (s.flush p b).mu = s.mu ∧
    (s.flush p b).tables = s.tables ∧
    (s.flush p b).pending = s.pending := by
  have h : (fun t : State => (t.power, t.mode, t.change, t.tb, t.ps, t.lc, t.sm, t.we, t.mu, t.tables, t.pending)) (s.flush p b) = (fun t : State => (t.power, t.mode, t.change, t.tb, t.ps, t.lc, t.sm, t.we, t.mu, t.tables, t.pending)) s := by
    unfold State.flush; dsimp only; split <;> simp
  simpa using h

@[simp] theorem flushAll_frame (s : State) :
    (s.flushAll).power = s.power ∧
    (s.flushAll).mode = s.mode ∧
    (s.flushAll).change = s.change ∧
    (s.flushAll).tb = s.tb ∧
    (s.flushAll).ps = s.ps ∧
    (s.flushAll).lc = s.lc ∧
    (s.flushAll).sm = s.sm ∧
    (s.flushAll).we = s.we ∧
    (s.flushAll).mu = s.mu ∧
    (s.flushAll).tables = s.tables ∧
    (s.flushAll).pending = s.pending := by
  have h := forEach_keeps (fun t : State => (t.power, t.mode, t.change, t.tb, t.ps, t.lc, t.sm, t.we, t.mu, t.tables, t.pending))
    allPos (fun p t => t.flush p false) s (by intro x t; simp)
  unfold State.flushAll
  simpa using h

@[simp] theorem clearLosses_frame (s : State) :
    (s.clearLosses).power = s.power ∧
    (s.clearLosses).mode = s.mode ∧
    (s.clearLosses).change = s.change ∧
    (s.clearLosses).tb = s.tb ∧
    (s.clearLosses).ps = s.ps ∧
    (s.clearLosses).lc = s.lc ∧
    (s.clearLosses).sm = s.sm ∧
    (s.clearLosses).we = s.we ∧
    (s.clearLosses).ru = s.ru ∧
    (s.clearLosses).ou = s.ou ∧
    (s.clearLosses).mu = s.mu ∧
    (s.clearLosses).tables = s.tables ∧
    (s.clearLosses).pending = s.pending := by
  have h := forEach_keeps (fun t : State => (t.power, t.mode, t.change, t.tb, t.ps, t.lc, t.sm, t.we, t.ru, t.ou, t.mu, t.tables, t.pending))
    allPos (fun p u => u.setQuality p fun q => { q with sampleLoss := false })
    { s with ss := { s.ss with chains := Vector.ofFn fun p => { s.ss.chains[p] with loss := false } } } (by intro x t; simp)
  unfold State.clearLosses
  simpa using h

@[simp] theorem resetStore_frame (s : State) :
    (s.resetStore).power = s.power ∧
    (s.resetStore).mode = s.mode ∧
    (s.resetStore).change = s.change ∧
    (s.resetStore).tb = s.tb ∧
    (s.resetStore).ps = s.ps ∧
    (s.resetStore).lc = s.lc ∧
    (s.resetStore).sm = s.sm ∧
    (s.resetStore).we = s.we ∧
    (s.resetStore).ru = s.ru ∧
    (s.resetStore).ou = s.ou ∧
    (s.resetStore).mu = s.mu ∧
    (s.resetStore).tables = s.tables ∧
    (s.resetStore).pending = s.pending := by
  have h := forEach_keeps (fun t : State => (t.power, t.mode, t.change, t.tb, t.ps, t.lc, t.sm, t.we, t.ru, t.ou, t.mu, t.tables, t.pending))
    allPos (fun p u => u.setQuality p fun q => { q with sampleLoss := false })
    { s with ss := s.ss.clear } (by intro x t; simp)
  unfold State.resetStore
  simpa using h

@[simp] theorem takeHead_frame (s : State) (q : List Pos) :
    (s.takeHead q).power = s.power ∧
    (s.takeHead q).mode = s.mode ∧
    (s.takeHead q).change = s.change ∧
    (s.takeHead q).tb = s.tb ∧
    (s.takeHead q).ps = s.ps ∧
    (s.takeHead q).lc = s.lc ∧
    (s.takeHead q).sm = s.sm ∧
    (s.takeHead q).cl = s.cl ∧
    (s.takeHead q).ru = s.ru ∧
    (s.takeHead q).ou = s.ou ∧
    (s.takeHead q).vp = s.vp ∧
    (s.takeHead q).mu = s.mu ∧
    (s.takeHead q).tables = s.tables ∧
    (s.takeHead q).pending = s.pending := by
  have h : (fun t : State => (t.power, t.mode, t.change, t.tb, t.ps, t.lc, t.sm, t.cl, t.ru, t.ou, t.vp, t.mu, t.tables, t.pending)) (s.takeHead q) = (fun t : State => (t.power, t.mode, t.change, t.tb, t.ps, t.lc, t.sm, t.cl, t.ru, t.ou, t.vp, t.mu, t.tables, t.pending)) s := by
    induction q generalizing s with
    | nil => rfl
    | cons p rest ih =>
      unfold State.takeHead
      split
      · rfl
      · rw [ih]
  simpa using h

@[simp] theorem startEvaluation_frame (s : State) :
    (s.startEvaluation).power = s.power ∧
    (s.startEvaluation).mode = s.mode ∧
    (s.startEvaluation).change = s.change ∧
    (s.startEvaluation).tb = s.tb ∧
    (s.startEvaluation).ps = s.ps ∧
    (s.startEvaluation).lc = s.lc ∧
    (s.startEvaluation).sm = s.sm ∧
    (s.startEvaluation).cl = s.cl ∧
    (s.startEvaluation).ru = s.ru ∧
    (s.startEvaluation).ou = s.ou ∧
    (s.startEvaluation).vp = s.vp ∧
    (s.startEvaluation).mu = s.mu ∧
    (s.startEvaluation).tables = s.tables ∧
    (s.startEvaluation).pending = s.pending := by
  have h : (fun t : State => (t.power, t.mode, t.change, t.tb, t.ps, t.lc, t.sm, t.cl, t.ru, t.ou, t.vp, t.mu, t.tables, t.pending)) (s.startEvaluation) = (fun t : State => (t.power, t.mode, t.change, t.tb, t.ps, t.lc, t.sm, t.cl, t.ru, t.ou, t.vp, t.mu, t.tables, t.pending)) s := by
    unfold State.startEvaluation; simp
  simpa using h

@[simp] theorem settleLoss_frame (s : State) (p : Pos) :
    (s.settleLoss p).power = s.power ∧
    (s.settleLoss p).mode = s.mode ∧
    (s.settleLoss p).change = s.change ∧
    (s.settleLoss p).tb = s.tb ∧
    (s.settleLoss p).ps = s.ps ∧
    (s.settleLoss p).lc = s.lc ∧
    (s.settleLoss p).sm = s.sm ∧
    (s.settleLoss p).we = s.we ∧
    (s.settleLoss p).ru = s.ru ∧
    (s.settleLoss p).ou = s.ou ∧
    (s.settleLoss p).mu = s.mu ∧
    (s.settleLoss p).tables = s.tables ∧
    (s.settleLoss p).pending = s.pending := by
  have h : (fun t : State => (t.power, t.mode, t.change, t.tb, t.ps, t.lc, t.sm, t.we, t.ru, t.ou, t.mu, t.tables, t.pending)) (s.settleLoss p) = (fun t : State => (t.power, t.mode, t.change, t.tb, t.ps, t.lc, t.sm, t.we, t.ru, t.ou, t.mu, t.tables, t.pending)) s := by
    unfold State.settleLoss; dsimp only; (repeat' split) <;> simp
  simpa using h

@[simp] theorem validCompletion_frame (s : State) (e : Evaluation) :
    (s.validCompletion e).power = s.power ∧
    (s.validCompletion e).mode = s.mode ∧
    (s.validCompletion e).change = s.change ∧
    (s.validCompletion e).tb = s.tb ∧
    (s.validCompletion e).ps = s.ps ∧
    (s.validCompletion e).lc = s.lc ∧
    (s.validCompletion e).sm = s.sm ∧
    (s.validCompletion e).we = s.we ∧
    (s.validCompletion e).mu = s.mu ∧
    (s.validCompletion e).tables = s.tables ∧
    (s.validCompletion e).pending = s.pending := by
  have h : (fun t : State => (t.power, t.mode, t.change, t.tb, t.ps, t.lc, t.sm, t.we, t.mu, t.tables, t.pending)) (s.validCompletion e) = (fun t : State => (t.power, t.mode, t.change, t.tb, t.ps, t.lc, t.sm, t.we, t.mu, t.tables, t.pending)) s := by
    unfold State.validCompletion; simp
  simpa using h

@[simp] theorem completeEvaluation_frame (s : State) (e : Evaluation) :
    (s.completeEvaluation e).power = s.power ∧
    (s.completeEvaluation e).mode = s.mode ∧
    (s.completeEvaluation e).change = s.change ∧
    (s.completeEvaluation e).tb = s.tb ∧
    (s.completeEvaluation e).ps = s.ps ∧
    (s.completeEvaluation e).lc = s.lc ∧
    (s.completeEvaluation e).sm = s.sm ∧
    (s.completeEvaluation e).mu = s.mu ∧
    (s.completeEvaluation e).tables = s.tables ∧
    (s.completeEvaluation e).pending = s.pending := by
  have h : (fun t : State => (t.power, t.mode, t.change, t.tb, t.ps, t.lc, t.sm, t.mu, t.tables, t.pending)) (s.completeEvaluation e) = (fun t : State => (t.power, t.mode, t.change, t.tb, t.ps, t.lc, t.sm, t.mu, t.tables, t.pending)) s := by
    unfold State.completeEvaluation; dsimp only; (repeat' split) <;> simp
  simpa using h

end Sys2Proof.Machine
end

