-- ==== Sys2Proof/Laws/FramesStations.lean ====
section
/-! SUPPORT. Which fields of the state the operations of the Station Manager and the Line Controller leave alone. -/

namespace Sys2Proof.Machine

@[simp] theorem setNode_frame (s : State) (st : Station) (f : Node → Node) :
    (s.setNode st f).power = s.power ∧
    (s.setNode st f).mode = s.mode ∧
    (s.setNode st f).change = s.change ∧
    (s.setNode st f).tb = s.tb ∧
    (s.setNode st f).ps = s.ps ∧
    (s.setNode st f).lc = s.lc ∧
    (s.setNode st f).ss = s.ss ∧
    (s.setNode st f).we = s.we ∧
    (s.setNode st f).cl = s.cl ∧
    (s.setNode st f).ru = s.ru ∧
    (s.setNode st f).ou = s.ou ∧
    (s.setNode st f).vp = s.vp ∧
    (s.setNode st f).mu = s.mu ∧
    (s.setNode st f).tables = s.tables ∧
    (s.setNode st f).pending = s.pending := ⟨rfl, rfl, rfl, rfl, rfl, rfl, rfl, rfl, rfl, rfl, rfl, rfl, rfl, rfl, rfl⟩

@[simp] theorem lookupCalibration_frame (s : State) (st : Station) :
    (s.lookupCalibration st).power = s.power ∧
    (s.lookupCalibration st).mode = s.mode ∧
    (s.lookupCalibration st).change = s.change ∧
    (s.lookupCalibration st).tb = s.tb ∧
    (s.lookupCalibration st).ps = s.ps ∧
    (s.lookupCalibration st).lc = s.lc ∧
    (s.lookupCalibration st).ss = s.ss ∧
    (s.lookupCalibration st).we = s.we ∧
    (s.lookupCalibration st).ru = s.ru ∧
    (s.lookupCalibration st).ou = s.ou ∧
    (s.lookupCalibration st).mu = s.mu ∧
    (s.lookupCalibration st).tables = s.tables ∧
    (s.lookupCalibration st).pending = s.pending := by
  have h : (fun t : State => (t.power, t.mode, t.change, t.tb, t.ps, t.lc, t.ss, t.we, t.ru, t.ou, t.mu, t.tables, t.pending)) (s.lookupCalibration st) = (fun t : State => (t.power, t.mode, t.change, t.tb, t.ps, t.lc, t.ss, t.we, t.ru, t.ou, t.mu, t.tables, t.pending)) s := by
    unfold State.lookupCalibration
    exact (forEach_keeps (fun t : State => (t.power, t.mode, t.change, t.tb, t.ps, t.lc, t.ss, t.we, t.ru, t.ou, t.mu, t.tables, t.pending)) _ _ _ (by intro x t; simp)).trans (by simp)
  simpa using h

@[simp] theorem reportCalMissing_frame (s : State) (st : Station) :
    (s.reportCalMissing st).power = s.power ∧
    (s.reportCalMissing st).mode = s.mode ∧
    (s.reportCalMissing st).change = s.change ∧
    (s.reportCalMissing st).tb = s.tb ∧
    (s.reportCalMissing st).ps = s.ps ∧
    (s.reportCalMissing st).lc = s.lc ∧
    (s.reportCalMissing st).sm = s.sm ∧
    (s.reportCalMissing st).ss = s.ss ∧
    (s.reportCalMissing st).we = s.we ∧
    (s.reportCalMissing st).cl = s.cl ∧
    (s.reportCalMissing st).ru = s.ru ∧
    (s.reportCalMissing st).ou = s.ou ∧
    (s.reportCalMissing st).mu = s.mu ∧
    (s.reportCalMissing st).tables = s.tables ∧
    (s.reportCalMissing st).pending = s.pending := by
  have h : (fun t : State => (t.power, t.mode, t.change, t.tb, t.ps, t.lc, t.sm, t.ss, t.we, t.cl, t.ru, t.ou, t.mu, t.tables, t.pending)) (s.reportCalMissing st) = (fun t : State => (t.power, t.mode, t.change, t.tb, t.ps, t.lc, t.sm, t.ss, t.we, t.cl, t.ru, t.ou, t.mu, t.tables, t.pending)) s := by
    unfold State.reportCalMissing; dsimp only; split <;> simp
  simpa using h

@[simp] theorem checkPlace_frame (s : State) (st : Station) (p : Pos) :
    (s.checkPlace st p).power = s.power ∧
    (s.checkPlace st p).mode = s.mode ∧
    (s.checkPlace st p).change = s.change ∧
    (s.checkPlace st p).tb = s.tb ∧
    (s.checkPlace st p).ps = s.ps ∧
    (s.checkPlace st p).lc = s.lc ∧
    (s.checkPlace st p).sm = s.sm ∧
    (s.checkPlace st p).ss = s.ss ∧
    (s.checkPlace st p).we = s.we ∧
    (s.checkPlace st p).ru = s.ru ∧
    (s.checkPlace st p).ou = s.ou ∧
    (s.checkPlace st p).mu = s.mu ∧
    (s.checkPlace st p).tables = s.tables ∧
    (s.checkPlace st p).pending = s.pending := by
  have h : (fun t : State => (t.power, t.mode, t.change, t.tb, t.ps, t.lc, t.sm, t.ss, t.we, t.ru, t.ou, t.mu, t.tables, t.pending)) (s.checkPlace st p) = (fun t : State => (t.power, t.mode, t.change, t.tb, t.ps, t.lc, t.sm, t.ss, t.we, t.ru, t.ou, t.mu, t.tables, t.pending)) s := by
    unfold State.checkPlace; dsimp only; (repeat' split) <;> simp
  simpa using h

@[simp] theorem placeCheck_frame (s : State) (st : Station) :
    (s.placeCheck st).power = s.power ∧
    (s.placeCheck st).mode = s.mode ∧
    (s.placeCheck st).change = s.change ∧
    (s.placeCheck st).tb = s.tb ∧
    (s.placeCheck st).ps = s.ps ∧
    (s.placeCheck st).lc = s.lc ∧
    (s.placeCheck st).sm = s.sm ∧
    (s.placeCheck st).ss = s.ss ∧
    (s.placeCheck st).we = s.we ∧
    (s.placeCheck st).ru = s.ru ∧
    (s.placeCheck st).ou = s.ou ∧
    (s.placeCheck st).mu = s.mu ∧
    (s.placeCheck st).tables = s.tables ∧
    (s.placeCheck st).pending = s.pending := by
  have h : (fun t : State => (t.power, t.mode, t.change, t.tb, t.ps, t.lc, t.sm, t.ss, t.we, t.ru, t.ou, t.mu, t.tables, t.pending)) (s.placeCheck st) = (fun t : State => (t.power, t.mode, t.change, t.tb, t.ps, t.lc, t.sm, t.ss, t.we, t.ru, t.ou, t.mu, t.tables, t.pending)) s := by
    unfold State.placeCheck
    exact (forEach_keeps (fun t : State => (t.power, t.mode, t.change, t.tb, t.ps, t.lc, t.sm, t.ss, t.we, t.ru, t.ou, t.mu, t.tables, t.pending)) _ _ _ (by intro x t; simp))
  simpa using h

@[simp] theorem reviewDefaultCal_frame (s : State) (st : Station) :
    (s.reviewDefaultCal st).power = s.power ∧
    (s.reviewDefaultCal st).mode = s.mode ∧
    (s.reviewDefaultCal st).change = s.change ∧
    (s.reviewDefaultCal st).tb = s.tb ∧
    (s.reviewDefaultCal st).ps = s.ps ∧
    (s.reviewDefaultCal st).lc = s.lc ∧
    (s.reviewDefaultCal st).sm = s.sm ∧
    (s.reviewDefaultCal st).ss = s.ss ∧
    (s.reviewDefaultCal st).we = s.we ∧
    (s.reviewDefaultCal st).ru = s.ru ∧
    (s.reviewDefaultCal st).ou = s.ou ∧
    (s.reviewDefaultCal st).mu = s.mu ∧
    (s.reviewDefaultCal st).tables = s.tables ∧
    (s.reviewDefaultCal st).pending = s.pending := by
  have h : (fun t : State => (t.power, t.mode, t.change, t.tb, t.ps, t.lc, t.sm, t.ss, t.we, t.ru, t.ou, t.mu, t.tables, t.pending)) (s.reviewDefaultCal st) = (fun t : State => (t.power, t.mode, t.change, t.tb, t.ps, t.lc, t.sm, t.ss, t.we, t.ru, t.ou, t.mu, t.tables, t.pending)) s := by
    unfold State.reviewDefaultCal
    exact (forEach_keeps (fun t : State => (t.power, t.mode, t.change, t.tb, t.ps, t.lc, t.sm, t.ss, t.we, t.ru, t.ou, t.mu, t.tables, t.pending)) _ _ _ (by intro x t; simp))
  simpa using h

@[simp] theorem activationEvent_frame (s : State) (st : Station) (o : Node) (a : Byte) (n : Nat) :
    (s.activationEvent st o a n).power = s.power ∧
    (s.activationEvent st o a n).mode = s.mode ∧
    (s.activationEvent st o a n).change = s.change ∧
    (s.activationEvent st o a n).tb = s.tb ∧
    (s.activationEvent st o a n).ps = s.ps ∧
    (s.activationEvent st o a n).lc = s.lc ∧
    (s.activationEvent st o a n).sm = s.sm ∧
    (s.activationEvent st o a n).ss = s.ss ∧
    (s.activationEvent st o a n).we = s.we ∧
    (s.activationEvent st o a n).cl = s.cl ∧
    (s.activationEvent st o a n).ru = s.ru ∧
    (s.activationEvent st o a n).ou = s.ou ∧
    (s.activationEvent st o a n).mu = s.mu ∧
    (s.activationEvent st o a n).tables = s.tables ∧
    (s.activationEvent st o a n).pending = s.pending := by
  have h : (fun t : State => (t.power, t.mode, t.change, t.tb, t.ps, t.lc, t.sm, t.ss, t.we, t.cl, t.ru, t.ou, t.mu, t.tables, t.pending)) (s.activationEvent st o a n) = (fun t : State => (t.power, t.mode, t.change, t.tb, t.ps, t.lc, t.sm, t.ss, t.we, t.cl, t.ru, t.ou, t.mu, t.tables, t.pending)) s := by
    unfold State.activationEvent; dsimp only; (repeat' split) <;> simp
  simpa using h

@[simp] theorem activate_frame (s : State) (st : Station) (a : Byte) (n l : Nat) :
    (s.activate st a n l).power = s.power ∧
    (s.activate st a n l).mode = s.mode ∧
    (s.activate st a n l).change = s.change ∧
    (s.activate st a n l).tb = s.tb ∧
    (s.activate st a n l).ps = s.ps ∧
    (s.activate st a n l).lc = s.lc ∧
    (s.activate st a n l).ss = s.ss ∧
    (s.activate st a n l).we = s.we ∧
    (s.activate st a n l).ru = s.ru ∧
    (s.activate st a n l).ou = s.ou ∧
    (s.activate st a n l).mu = s.mu ∧
    (s.activate st a n l).tables = s.tables ∧
    (s.activate st a n l).pending = s.pending := by
  have h : (fun t : State => (t.power, t.mode, t.change, t.tb, t.ps, t.lc, t.ss, t.we, t.ru, t.ou, t.mu, t.tables, t.pending)) (s.activate st a n l) = (fun t : State => (t.power, t.mode, t.change, t.tb, t.ps, t.lc, t.ss, t.we, t.ru, t.ou, t.mu, t.tables, t.pending)) s := by
    unfold State.activate; simp
  simpa using h

@[simp] theorem flushStation_frame (s : State) (st : Station) :
    (s.flushStation st).power = s.power ∧
    (s.flushStation st).mode = s.mode ∧
    (s.flushStation st).change = s.change ∧
    (s.flushStation st).tb = s.tb ∧
    (s.flushStation st).ps = s.ps ∧
    (s.flushStation st).lc = s.lc ∧
    (s.flushStation st).sm = s.sm ∧
    (s.flushStation st).we = s.we ∧
    (s.flushStation st).mu = s.mu ∧
    (s.flushStation st).tables = s.tables ∧
    (s.flushStation st).pending = s.pending := by
  have h : (fun t : State => (t.power, t.mode, t.change, t.tb, t.ps, t.lc, t.sm, t.we, t.mu, t.tables, t.pending)) (s.flushStation st) = (fun t : State => (t.power, t.mode, t.change, t.tb, t.ps, t.lc, t.sm, t.we, t.mu, t.tables, t.pending)) s := by
    unfold State.flushStation
    exact (forEach_keeps (fun t : State => (t.power, t.mode, t.change, t.tb, t.ps, t.lc, t.sm, t.we, t.mu, t.tables, t.pending)) _ _ _ (by intro x t; simp))
  simpa using h

@[simp] theorem seatChange_frame (s : State) (st : Station) (a : Byte) (n l : Nat) :
    (s.seatChange st a n l).power = s.power ∧
    (s.seatChange st a n l).mode = s.mode ∧
    (s.seatChange st a n l).change = s.change ∧
    (s.seatChange st a n l).tb = s.tb ∧
    (s.seatChange st a n l).ps = s.ps ∧
    (s.seatChange st a n l).lc = s.lc ∧
    (s.seatChange st a n l).we = s.we ∧
    (s.seatChange st a n l).mu = s.mu ∧
    (s.seatChange st a n l).tables = s.tables ∧
    (s.seatChange st a n l).pending = s.pending := by
  have h : (fun t : State => (t.power, t.mode, t.change, t.tb, t.ps, t.lc, t.we, t.mu, t.tables, t.pending)) (s.seatChange st a n l) = (fun t : State => (t.power, t.mode, t.change, t.tb, t.ps, t.lc, t.we, t.mu, t.tables, t.pending)) s := by
    unfold State.seatChange; simp
  simpa using h

@[simp] theorem linkLoss_frame (s : State) (st : Station) :
    (s.linkLoss st).power = s.power ∧
    (s.linkLoss st).mode = s.mode ∧
    (s.linkLoss st).change = s.change ∧
    (s.linkLoss st).tb = s.tb ∧
    (s.linkLoss st).ps = s.ps ∧
    (s.linkLoss st).lc = s.lc ∧
    (s.linkLoss st).we = s.we ∧
    (s.linkLoss st).mu = s.mu ∧
    (s.linkLoss st).tables = s.tables ∧
    (s.linkLoss st).pending = s.pending := by
  have h (t : State) := forEach_keeps (fun t : State => (t.power, t.mode, t.change, t.tb, t.ps, t.lc, t.we, t.mu, t.tables, t.pending))
    (t.routedPositions st) (fun p u => u.setQuality p fun q => { q with linkDown := true })
    t (by intro x t; simp)
  have k := h ((s.setNode st fun n => { n with state := .linkLost }).flushStation st)
  unfold State.linkLoss
  simpa using k

@[simp] theorem miss_frame (s : State) (st : Station) :
    (s.miss st).power = s.power ∧
    (s.miss st).mode = s.mode ∧
    (s.miss st).change = s.change ∧
    (s.miss st).tb = s.tb ∧
    (s.miss st).ps = s.ps ∧
    (s.miss st).lc = s.lc ∧
    (s.miss st).we = s.we ∧
    (s.miss st).mu = s.mu ∧
    (s.miss st).tables = s.tables ∧
    (s.miss st).pending = s.pending := by
  have h : (fun t : State => (t.power, t.mode, t.change, t.tb, t.ps, t.lc, t.we, t.mu, t.tables, t.pending)) (s.miss st) = (fun t : State => (t.power, t.mode, t.change, t.tb, t.ps, t.lc, t.we, t.mu, t.tables, t.pending)) s := by
    unfold State.miss; dsimp only; split <;> simp
  simpa using h

@[simp] theorem noteHop_frame (s : State) (st : Station) (l : Nat) :
    (s.noteHop st l).power = s.power ∧
    (s.noteHop st l).mode = s.mode ∧
    (s.noteHop st l).change = s.change ∧
    (s.noteHop st l).tb = s.tb ∧
    (s.noteHop st l).ps = s.ps ∧
    (s.noteHop st l).lc = s.lc ∧
    (s.noteHop st l).ss = s.ss ∧
    (s.noteHop st l).we = s.we ∧
    (s.noteHop st l).cl = s.cl ∧
    (s.noteHop st l).ru = s.ru ∧
    (s.noteHop st l).ou = s.ou ∧
    (s.noteHop st l).mu = s.mu ∧
    (s.noteHop st l).tables = s.tables ∧
    (s.noteHop st l).pending = s.pending := by
  have h : (fun t : State => (t.power, t.mode, t.change, t.tb, t.ps, t.lc, t.ss, t.we, t.cl, t.ru, t.ou, t.mu, t.tables, t.pending)) (s.noteHop st l) = (fun t : State => (t.power, t.mode, t.change, t.tb, t.ps, t.lc, t.ss, t.we, t.cl, t.ru, t.ou, t.mu, t.tables, t.pending)) s := by
    unfold State.noteHop; dsimp only; split <;> simp
  simpa using h

@[simp] theorem deliverSamples_frame (s : State) (st : Station) (xs : List PlaceSample) :
    (s.deliverSamples st xs).power = s.power ∧
    (s.deliverSamples st xs).mode = s.mode ∧
    (s.deliverSamples st xs).change = s.change ∧
    (s.deliverSamples st xs).tb = s.tb ∧
    (s.deliverSamples st xs).ps = s.ps ∧
    (s.deliverSamples st xs).lc = s.lc ∧
    (s.deliverSamples st xs).sm = s.sm ∧
    (s.deliverSamples st xs).we = s.we ∧
    (s.deliverSamples st xs).mu = s.mu ∧
    (s.deliverSamples st xs).tables = s.tables ∧
    (s.deliverSamples st xs).pending = s.pending := by
  have h : (fun t : State => (t.power, t.mode, t.change, t.tb, t.ps, t.lc, t.sm, t.we, t.mu, t.tables, t.pending)) (s.deliverSamples st xs) = (fun t : State => (t.power, t.mode, t.change, t.tb, t.ps, t.lc, t.sm, t.we, t.mu, t.tables, t.pending)) s := by
    unfold State.deliverSamples
    exact (forEach_keeps (fun t : State => (t.power, t.mode, t.change, t.tb, t.ps, t.lc, t.sm, t.we, t.mu, t.tables, t.pending)) _ _ _ (by intro x t; split <;> simp))
  simpa using h

@[simp] theorem identifyActive_frame (s : State) (st : Station) (a : Byte) (n l : Nat) :
    (s.identifyActive st a n l).power = s.power ∧
    (s.identifyActive st a n l).mode = s.mode ∧
    (s.identifyActive st a n l).change = s.change ∧
    (s.identifyActive st a n l).tb = s.tb ∧
    (s.identifyActive st a n l).ps = s.ps ∧
    (s.identifyActive st a n l).lc = s.lc ∧
    (s.identifyActive st a n l).we = s.we ∧
    (s.identifyActive st a n l).mu = s.mu ∧
    (s.identifyActive st a n l).tables = s.tables ∧
    (s.identifyActive st a n l).pending = s.pending := by
  have h : (fun t : State => (t.power, t.mode, t.change, t.tb, t.ps, t.lc, t.we, t.mu, t.tables, t.pending)) (s.identifyActive st a n l) = (fun t : State => (t.power, t.mode, t.change, t.tb, t.ps, t.lc, t.we, t.mu, t.tables, t.pending)) s := by
    unfold State.identifyActive; dsimp only; (repeat' split) <;> simp
  simpa using h

@[simp] theorem sampleActive_frame (s : State) (st : Station) (a : Byte) (n l : Nat) (xs : List PlaceSample) :
    (s.sampleActive st a n l xs).power = s.power ∧
    (s.sampleActive st a n l xs).mode = s.mode ∧
    (s.sampleActive st a n l xs).change = s.change ∧
    (s.sampleActive st a n l xs).tb = s.tb ∧
    (s.sampleActive st a n l xs).ps = s.ps ∧
    (s.sampleActive st a n l xs).lc = s.lc ∧
    (s.sampleActive st a n l xs).we = s.we ∧
    (s.sampleActive st a n l xs).mu = s.mu ∧
    (s.sampleActive st a n l xs).tables = s.tables ∧
    (s.sampleActive st a n l xs).pending = s.pending := by
  have h : (fun t : State => (t.power, t.mode, t.change, t.tb, t.ps, t.lc, t.we, t.mu, t.tables, t.pending)) (s.sampleActive st a n l xs) = (fun t : State => (t.power, t.mode, t.change, t.tb, t.ps, t.lc, t.we, t.mu, t.tables, t.pending)) s := by
    unfold State.sampleActive; dsimp only; (repeat' split) <;> simp
  simpa using h

@[simp] theorem takeOutcome_frame (s : State) (st : Station) (k : PollKind) (l : Nat) (o : ReplyOutcome) :
    (s.takeOutcome st k l o).power = s.power ∧
    (s.takeOutcome st k l o).mode = s.mode ∧
    (s.takeOutcome st k l o).change = s.change ∧
    (s.takeOutcome st k l o).tb = s.tb ∧
    (s.takeOutcome st k l o).ps = s.ps ∧
    (s.takeOutcome st k l o).lc = s.lc ∧
    (s.takeOutcome st k l o).we = s.we ∧
    (s.takeOutcome st k l o).mu = s.mu ∧
    (s.takeOutcome st k l o).tables = s.tables ∧
    (s.takeOutcome st k l o).pending = s.pending := by
  have h : (fun t : State => (t.power, t.mode, t.change, t.tb, t.ps, t.lc, t.we, t.mu, t.tables, t.pending)) (s.takeOutcome st k l o) = (fun t : State => (t.power, t.mode, t.change, t.tb, t.ps, t.lc, t.we, t.mu, t.tables, t.pending)) s := by
    unfold State.takeOutcome; dsimp only; (repeat' split) <;> simp
  simpa using h

@[simp] theorem runLookup_frame (s : State) (st : Station) :
    (s.runLookup st).power = s.power ∧
    (s.runLookup st).mode = s.mode ∧
    (s.runLookup st).change = s.change ∧
    (s.runLookup st).tb = s.tb ∧
    (s.runLookup st).ps = s.ps ∧
    (s.runLookup st).lc = s.lc ∧
    (s.runLookup st).ss = s.ss ∧
    (s.runLookup st).we = s.we ∧
    (s.runLookup st).ru = s.ru ∧
    (s.runLookup st).ou = s.ou ∧
    (s.runLookup st).mu = s.mu ∧
    (s.runLookup st).tables = s.tables ∧
    (s.runLookup st).pending = s.pending := by
  have h : (fun t : State => (t.power, t.mode, t.change, t.tb, t.ps, t.lc, t.ss, t.we, t.ru, t.ou, t.mu, t.tables, t.pending)) (s.runLookup st) = (fun t : State => (t.power, t.mode, t.change, t.tb, t.ps, t.lc, t.ss, t.we, t.ru, t.ou, t.mu, t.tables, t.pending)) s := by
    unfold State.runLookup; dsimp only; split <;> simp
  simpa using h

@[simp] theorem runLinkDown_frame (s : State) (p : Pos) :
    (s.runLinkDown p).power = s.power ∧
    (s.runLinkDown p).mode = s.mode ∧
    (s.runLinkDown p).change = s.change ∧
    (s.runLinkDown p).tb = s.tb ∧
    (s.runLinkDown p).ps = s.ps ∧
    (s.runLinkDown p).lc = s.lc ∧
    (s.runLinkDown p).sm = s.sm ∧
    (s.runLinkDown p).ss = s.ss ∧
    (s.runLinkDown p).we = s.we ∧
    (s.runLinkDown p).ru = s.ru ∧
    (s.runLinkDown p).ou = s.ou ∧
    (s.runLinkDown p).mu = s.mu ∧
    (s.runLinkDown p).tables = s.tables ∧
    (s.runLinkDown p).pending = s.pending := by
  have h : (fun t : State => (t.power, t.mode, t.change, t.tb, t.ps, t.lc, t.sm, t.ss, t.we, t.ru, t.ou, t.mu, t.tables, t.pending)) (s.runLinkDown p) = (fun t : State => (t.power, t.mode, t.change, t.tb, t.ps, t.lc, t.sm, t.ss, t.we, t.ru, t.ou, t.mu, t.tables, t.pending)) s := by
    unfold State.runLinkDown; dsimp only; (repeat' split) <;> simp
  simpa using h

@[simp] theorem stationsEnterRun_frame (s : State) :
    (s.stationsEnterRun).power = s.power ∧
    (s.stationsEnterRun).mode = s.mode ∧
    (s.stationsEnterRun).change = s.change ∧
    (s.stationsEnterRun).tb = s.tb ∧
    (s.stationsEnterRun).ps = s.ps ∧
    (s.stationsEnterRun).lc = s.lc ∧
    (s.stationsEnterRun).ss = s.ss ∧
    (s.stationsEnterRun).we = s.we ∧
    (s.stationsEnterRun).ru = s.ru ∧
    (s.stationsEnterRun).ou = s.ou ∧
    (s.stationsEnterRun).mu = s.mu ∧
    (s.stationsEnterRun).tables = s.tables ∧
    (s.stationsEnterRun).pending = s.pending := by
  have h1 (t : State) := forEach_keeps (fun t : State => (t.power, t.mode, t.change, t.tb, t.ps, t.lc, t.ss, t.we, t.ru, t.ou, t.mu, t.tables, t.pending))
    allStations (fun st u => u.runLookup st) t (by intro x t; simp)
  have h2 (t : State) := forEach_keeps (fun t : State => (t.power, t.mode, t.change, t.tb, t.ps, t.lc, t.ss, t.we, t.ru, t.ou, t.mu, t.tables, t.pending))
    allStations (fun st u => if u.sm.nodes[st].state = .active then u.placeCheck st else u) t (by intro x t; split <;> simp)
  have h3 (t : State) := forEach_keeps (fun t : State => (t.power, t.mode, t.change, t.tb, t.ps, t.lc, t.ss, t.we, t.ru, t.ou, t.mu, t.tables, t.pending))
    allPos (fun p u => u.runLinkDown p) t (by intro x t; simp)
  have k := (h3 _).trans ((h2 _).trans (h1 { s with sm := { s.sm with routing := s.tables.buildRouting } }))
  unfold State.stationsEnterRun
  simpa using k

@[simp] theorem putLine_frame (s : State) (l : LineController) :
    (s.putLine l).power = s.power ∧
    (s.putLine l).mode = s.mode ∧
    (s.putLine l).change = s.change ∧
    (s.putLine l).tb = s.tb ∧
    (s.putLine l).ps = s.ps ∧
    (s.putLine l).sm = s.sm ∧
    (s.putLine l).ss = s.ss ∧
    (s.putLine l).we = s.we ∧
    (s.putLine l).cl = s.cl ∧
    (s.putLine l).ru = s.ru ∧
    (s.putLine l).ou = s.ou ∧
    (s.putLine l).vp = s.vp ∧
    (s.putLine l).mu = s.mu ∧
    (s.putLine l).tables = s.tables ∧
    (s.putLine l).pending = s.pending := ⟨rfl, rfl, rfl, rfl, rfl, rfl, rfl, rfl, rfl, rfl, rfl, rfl, rfl, rfl, rfl⟩

@[simp] theorem deliver_frame (s : State) (p : Poll) (o : ReplyOutcome) :
    (s.deliver p o).power = s.power ∧
    (s.deliver p o).mode = s.mode ∧
    (s.deliver p o).change = s.change ∧
    (s.deliver p o).tb = s.tb ∧
    (s.deliver p o).ps = s.ps ∧
    (s.deliver p o).we = s.we ∧
    (s.deliver p o).mu = s.mu ∧
    (s.deliver p o).tables = s.tables ∧
    (s.deliver p o).pending = s.pending := by
  have h : (fun t : State => (t.power, t.mode, t.change, t.tb, t.ps, t.we, t.mu, t.tables, t.pending)) (s.deliver p o) = (fun t : State => (t.power, t.mode, t.change, t.tb, t.ps, t.we, t.mu, t.tables, t.pending)) s := by
    unfold State.deliver; simp
  simpa using h

@[simp] theorem sendPoll_frame (s : State) (p : Poll) :
    (s.sendPoll p).power = s.power ∧
    (s.sendPoll p).mode = s.mode ∧
    (s.sendPoll p).change = s.change ∧
    (s.sendPoll p).tb = s.tb ∧
    (s.sendPoll p).ps = s.ps ∧
    (s.sendPoll p).ss = s.ss ∧
    (s.sendPoll p).we = s.we ∧
    (s.sendPoll p).cl = s.cl ∧
    (s.sendPoll p).ru = s.ru ∧
    (s.sendPoll p).ou = s.ou ∧
    (s.sendPoll p).vp = s.vp ∧
    (s.sendPoll p).mu = s.mu ∧
    (s.sendPoll p).tables = s.tables ∧
    (s.sendPoll p).pending = s.pending := by
  have h : (fun t : State => (t.power, t.mode, t.change, t.tb, t.ps, t.ss, t.we, t.cl, t.ru, t.ou, t.vp, t.mu, t.tables, t.pending)) (s.sendPoll p) = (fun t : State => (t.power, t.mode, t.change, t.tb, t.ps, t.ss, t.we, t.cl, t.ru, t.ou, t.vp, t.mu, t.tables, t.pending)) s := by
    unfold State.sendPoll; simp
  simpa using h

@[simp] theorem endPoll_frame (s : State) (p : Poll) :
    (s.endPoll p).power = s.power ∧
    (s.endPoll p).mode = s.mode ∧
    (s.endPoll p).change = s.change ∧
    (s.endPoll p).tb = s.tb ∧
    (s.endPoll p).ps = s.ps ∧
    (s.endPoll p).sm = s.sm ∧
    (s.endPoll p).ss = s.ss ∧
    (s.endPoll p).we = s.we ∧
    (s.endPoll p).cl = s.cl ∧
    (s.endPoll p).ru = s.ru ∧
    (s.endPoll p).ou = s.ou ∧
    (s.endPoll p).vp = s.vp ∧
    (s.endPoll p).mu = s.mu ∧
    (s.endPoll p).tables = s.tables ∧
    (s.endPoll p).pending = s.pending := by
  have h : (fun t : State => (t.power, t.mode, t.change, t.tb, t.ps, t.sm, t.ss, t.we, t.cl, t.ru, t.ou, t.vp, t.mu, t.tables, t.pending)) (s.endPoll p) = (fun t : State => (t.power, t.mode, t.change, t.tb, t.ps, t.sm, t.ss, t.we, t.cl, t.ru, t.ou, t.vp, t.mu, t.tables, t.pending)) s := by
    unfold State.endPoll; simp
  simpa using h

@[simp] theorem takeStartBit_frame (s : State) (p : Poll) (c : Nat) :
    (s.takeStartBit p c).power = s.power ∧
    (s.takeStartBit p c).mode = s.mode ∧
    (s.takeStartBit p c).change = s.change ∧
    (s.takeStartBit p c).tb = s.tb ∧
    (s.takeStartBit p c).ps = s.ps ∧
    (s.takeStartBit p c).we = s.we ∧
    (s.takeStartBit p c).mu = s.mu ∧
    (s.takeStartBit p c).tables = s.tables ∧
    (s.takeStartBit p c).pending = s.pending := by
  have h : (fun t : State => (t.power, t.mode, t.change, t.tb, t.ps, t.we, t.mu, t.tables, t.pending)) (s.takeStartBit p c) = (fun t : State => (t.power, t.mode, t.change, t.tb, t.ps, t.we, t.mu, t.tables, t.pending)) s := by
    unfold State.takeStartBit; dsimp only; (repeat' split) <;> simp
  simpa using h

@[simp] theorem readByte_frame (s : State) (p : Poll) :
    (s.readByte p).power = s.power ∧
    (s.readByte p).mode = s.mode ∧
    (s.readByte p).change = s.change ∧
    (s.readByte p).tb = s.tb ∧
    (s.readByte p).ps = s.ps ∧
    (s.readByte p).we = s.we ∧
    (s.readByte p).mu = s.mu ∧
    (s.readByte p).tables = s.tables ∧
    (s.readByte p).pending = s.pending := by
  have h : (fun t : State => (t.power, t.mode, t.change, t.tb, t.ps, t.we, t.mu, t.tables, t.pending)) (s.readByte p) = (fun t : State => (t.power, t.mode, t.change, t.tb, t.ps, t.we, t.mu, t.tables, t.pending)) s := by
    unfold State.readByte; dsimp only; (repeat' split) <;> simp
  simpa using h

end Sys2Proof.Machine
end

