-- ==== Sys2Proof/Laws/FramesModes.lean ====
section
/-! SUPPORT. Which fields of the state the operations of the Time Base, the Poll Scheduler, Mode Control and the Management Unit leave alone. -/

namespace Sys2Proof.Machine

@[simp] theorem passMillisecond_frame (s : State) :
    (s.passMillisecond).power = s.power ∧
    (s.passMillisecond).mode = s.mode ∧
    (s.passMillisecond).change = s.change ∧
    (s.passMillisecond).ps = s.ps ∧
    (s.passMillisecond).lc = s.lc ∧
    (s.passMillisecond).sm = s.sm ∧
    (s.passMillisecond).ss = s.ss ∧
    (s.passMillisecond).we = s.we ∧
    (s.passMillisecond).cl = s.cl ∧
    (s.passMillisecond).ru = s.ru ∧
    (s.passMillisecond).ou = s.ou ∧
    (s.passMillisecond).vp = s.vp ∧
    (s.passMillisecond).mu = s.mu ∧
    (s.passMillisecond).tables = s.tables ∧
    (s.passMillisecond).pending = s.pending := ⟨rfl, rfl, rfl, rfl, rfl, rfl, rfl, rfl, rfl, rfl, rfl, rfl, rfl, rfl, rfl⟩

@[simp] theorem requestPoll_frame (s : State) (st : Station) (k : PollKind) :
    (s.requestPoll st k).power = s.power ∧
    (s.requestPoll st k).mode = s.mode ∧
    (s.requestPoll st k).change = s.change ∧
    (s.requestPoll st k).tb = s.tb ∧
    (s.requestPoll st k).ps = s.ps ∧
    (s.requestPoll st k).sm = s.sm ∧
    (s.requestPoll st k).ss = s.ss ∧
    (s.requestPoll st k).we = s.we ∧
    (s.requestPoll st k).cl = s.cl ∧
    (s.requestPoll st k).ru = s.ru ∧
    (s.requestPoll st k).ou = s.ou ∧
    (s.requestPoll st k).vp = s.vp ∧
    (s.requestPoll st k).mu = s.mu ∧
    (s.requestPoll st k).tables = s.tables ∧
    (s.requestPoll st k).pending = s.pending := ⟨rfl, rfl, rfl, rfl, rfl, rfl, rfl, rfl, rfl, rfl, rfl, rfl, rfl, rfl, rfl⟩

@[simp] theorem visitStation_frame (s : State) (st : Station) :
    (s.visitStation st).power = s.power ∧
    (s.visitStation st).mode = s.mode ∧
    (s.visitStation st).change = s.change ∧
    (s.visitStation st).tb = s.tb ∧
    (s.visitStation st).ps = s.ps ∧
    (s.visitStation st).ss = s.ss ∧
    (s.visitStation st).we = s.we ∧
    (s.visitStation st).cl = s.cl ∧
    (s.visitStation st).ru = s.ru ∧
    (s.visitStation st).ou = s.ou ∧
    (s.visitStation st).vp = s.vp ∧
    (s.visitStation st).mu = s.mu ∧
    (s.visitStation st).tables = s.tables ∧
    (s.visitStation st).pending = s.pending := by
  have h : (fun t : State => (t.power, t.mode, t.change, t.tb, t.ps, t.ss, t.we, t.cl, t.ru, t.ou, t.vp, t.mu, t.tables, t.pending)) (s.visitStation st) = (fun t : State => (t.power, t.mode, t.change, t.tb, t.ps, t.ss, t.we, t.cl, t.ru, t.ou, t.vp, t.mu, t.tables, t.pending)) s := by
    unfold State.visitStation; dsimp only; (repeat' split) <;> simp
  simpa using h

@[simp] theorem openSlot_frame (s : State) :
    (s.openSlot).power = s.power ∧
    (s.openSlot).mode = s.mode ∧
    (s.openSlot).change = s.change ∧
    (s.openSlot).tb = s.tb ∧
    (s.openSlot).sm = s.sm ∧
    (s.openSlot).ss = s.ss ∧
    (s.openSlot).we = s.we ∧
    (s.openSlot).cl = s.cl ∧
    (s.openSlot).ru = s.ru ∧
    (s.openSlot).ou = s.ou ∧
    (s.openSlot).vp = s.vp ∧
    (s.openSlot).mu = s.mu ∧
    (s.openSlot).tables = s.tables ∧
    (s.openSlot).pending = s.pending := by
  have h : (fun t : State => (t.power, t.mode, t.change, t.tb, t.sm, t.ss, t.we, t.cl, t.ru, t.ou, t.vp, t.mu, t.tables, t.pending)) (s.openSlot) = (fun t : State => (t.power, t.mode, t.change, t.tb, t.sm, t.ss, t.we, t.cl, t.ru, t.ou, t.vp, t.mu, t.tables, t.pending)) s := by
    unfold State.openSlot; dsimp only; split <;> simp
  simpa using h

@[simp] theorem slotVisit_frame (s : State) :
    (s.slotVisit).power = s.power ∧
    (s.slotVisit).mode = s.mode ∧
    (s.slotVisit).change = s.change ∧
    (s.slotVisit).tb = s.tb ∧
    (s.slotVisit).ss = s.ss ∧
    (s.slotVisit).we = s.we ∧
    (s.slotVisit).cl = s.cl ∧
    (s.slotVisit).ru = s.ru ∧
    (s.slotVisit).ou = s.ou ∧
    (s.slotVisit).vp = s.vp ∧
    (s.slotVisit).mu = s.mu ∧
    (s.slotVisit).tables = s.tables ∧
    (s.slotVisit).pending = s.pending := by
  have h : (fun t : State => (t.power, t.mode, t.change, t.tb, t.ss, t.we, t.cl, t.ru, t.ou, t.vp, t.mu, t.tables, t.pending)) (s.slotVisit) = (fun t : State => (t.power, t.mode, t.change, t.tb, t.ss, t.we, t.cl, t.ru, t.ou, t.vp, t.mu, t.tables, t.pending)) s := by
    unfold State.slotVisit; dsimp only; split <;> simp
  simpa using h

@[simp] theorem sweepSlot_frame (s : State) :
    (s.sweepSlot).power = s.power ∧
    (s.sweepSlot).mode = s.mode ∧
    (s.sweepSlot).change = s.change ∧
    (s.sweepSlot).tb = s.tb ∧
    (s.sweepSlot).sm = s.sm ∧
    (s.sweepSlot).ss = s.ss ∧
    (s.sweepSlot).we = s.we ∧
    (s.sweepSlot).cl = s.cl ∧
    (s.sweepSlot).ru = s.ru ∧
    (s.sweepSlot).ou = s.ou ∧
    (s.sweepSlot).vp = s.vp ∧
    (s.sweepSlot).mu = s.mu ∧
    (s.sweepSlot).tables = s.tables ∧
    (s.sweepSlot).pending = s.pending := by
  have h : (fun t : State => (t.power, t.mode, t.change, t.tb, t.sm, t.ss, t.we, t.cl, t.ru, t.ou, t.vp, t.mu, t.tables, t.pending)) (s.sweepSlot) = (fun t : State => (t.power, t.mode, t.change, t.tb, t.sm, t.ss, t.we, t.cl, t.ru, t.ou, t.vp, t.mu, t.tables, t.pending)) s := by
    unfold State.sweepSlot; simp
  simpa using h

@[simp] theorem decideSlot_frame (s : State) :
    (s.decideSlot).power = s.power ∧
    (s.decideSlot).mode = s.mode ∧
    (s.decideSlot).change = s.change ∧
    (s.decideSlot).tb = s.tb ∧
    (s.decideSlot).ss = s.ss ∧
    (s.decideSlot).we = s.we ∧
    (s.decideSlot).cl = s.cl ∧
    (s.decideSlot).ru = s.ru ∧
    (s.decideSlot).ou = s.ou ∧
    (s.decideSlot).vp = s.vp ∧
    (s.decideSlot).mu = s.mu ∧
    (s.decideSlot).tables = s.tables ∧
    (s.decideSlot).pending = s.pending := by
  have h : (fun t : State => (t.power, t.mode, t.change, t.tb, t.ss, t.we, t.cl, t.ru, t.ou, t.vp, t.mu, t.tables, t.pending)) (s.decideSlot) = (fun t : State => (t.power, t.mode, t.change, t.tb, t.ss, t.we, t.cl, t.ru, t.ou, t.vp, t.mu, t.tables, t.pending)) s := by
    unfold State.decideSlot; dsimp only; split <;> simp
  simpa using h

@[simp] theorem postponeEntry_frame (s : State) :
    (s.postponeEntry).power = s.power ∧
    (s.postponeEntry).mode = s.mode ∧
    (s.postponeEntry).tb = s.tb ∧
    (s.postponeEntry).ps = s.ps ∧
    (s.postponeEntry).lc = s.lc ∧
    (s.postponeEntry).sm = s.sm ∧
    (s.postponeEntry).ss = s.ss ∧
    (s.postponeEntry).we = s.we ∧
    (s.postponeEntry).cl = s.cl ∧
    (s.postponeEntry).ru = s.ru ∧
    (s.postponeEntry).ou = s.ou ∧
    (s.postponeEntry).vp = s.vp ∧
    (s.postponeEntry).mu = s.mu ∧
    (s.postponeEntry).tables = s.tables ∧
    (s.postponeEntry).pending = s.pending := by
  have h : (fun t : State => (t.power, t.mode, t.tb, t.ps, t.lc, t.sm, t.ss, t.we, t.cl, t.ru, t.ou, t.vp, t.mu, t.tables, t.pending)) (s.postponeEntry) = (fun t : State => (t.power, t.mode, t.tb, t.ps, t.lc, t.sm, t.ss, t.we, t.cl, t.ru, t.ou, t.vp, t.mu, t.tables, t.pending)) s := by
    unfold State.postponeEntry; dsimp only; split <;> simp
  simpa using h

@[simp] theorem takeSlotStart_frame (s : State) :
    (s.takeSlotStart).power = s.power ∧
    (s.takeSlotStart).mode = s.mode ∧
    (s.takeSlotStart).ss = s.ss ∧
    (s.takeSlotStart).we = s.we ∧
    (s.takeSlotStart).cl = s.cl ∧
    (s.takeSlotStart).ru = s.ru ∧
    (s.takeSlotStart).ou = s.ou ∧
    (s.takeSlotStart).vp = s.vp ∧
    (s.takeSlotStart).mu = s.mu ∧
    (s.takeSlotStart).tables = s.tables ∧
    (s.takeSlotStart).pending = s.pending := by
  have h : (fun t : State => (t.power, t.mode, t.ss, t.we, t.cl, t.ru, t.ou, t.vp, t.mu, t.tables, t.pending)) (s.takeSlotStart) = (fun t : State => (t.power, t.mode, t.ss, t.we, t.cl, t.ru, t.ou, t.vp, t.mu, t.tables, t.pending)) s := by
    unfold State.takeSlotStart; simp
  simpa using h

@[simp] theorem mapStep_frame (s : State) (f : StepRun → StepRun) :
    (s.mapStep f).power = s.power ∧
    (s.mapStep f).mode = s.mode ∧
    (s.mapStep f).change = s.change ∧
    (s.mapStep f).tb = s.tb ∧
    (s.mapStep f).ps = s.ps ∧
    (s.mapStep f).lc = s.lc ∧
    (s.mapStep f).sm = s.sm ∧
    (s.mapStep f).ss = s.ss ∧
    (s.mapStep f).we = s.we ∧
    (s.mapStep f).cl = s.cl ∧
    (s.mapStep f).ru = s.ru ∧
    (s.mapStep f).ou = s.ou ∧
    (s.mapStep f).vp = s.vp ∧
    (s.mapStep f).tables = s.tables ∧
    (s.mapStep f).pending = s.pending := by
  have h : (fun t : State => (t.power, t.mode, t.change, t.tb, t.ps, t.lc, t.sm, t.ss, t.we, t.cl, t.ru, t.ou, t.vp, t.tables, t.pending)) (s.mapStep f) = (fun t : State => (t.power, t.mode, t.change, t.tb, t.ps, t.lc, t.sm, t.ss, t.we, t.cl, t.ru, t.ou, t.vp, t.tables, t.pending)) s := by
    unfold State.mapStep; dsimp only; split <;> simp
  simpa using h

@[simp] theorem testDeadlines_frame (s : State) :
    (s.testDeadlines).power = s.power ∧
    (s.testDeadlines).mode = s.mode ∧
    (s.testDeadlines).change = s.change ∧
    (s.testDeadlines).tb = s.tb ∧
    (s.testDeadlines).ps = s.ps ∧
    (s.testDeadlines).lc = s.lc ∧
    (s.testDeadlines).sm = s.sm ∧
    (s.testDeadlines).ss = s.ss ∧
    (s.testDeadlines).we = s.we ∧
    (s.testDeadlines).cl = s.cl ∧
    (s.testDeadlines).tables = s.tables ∧
    (s.testDeadlines).pending = s.pending := by
  have h := forEach_keeps (fun t : State => (t.power, t.mode, t.change, t.tb, t.ps, t.lc, t.sm, t.ss, t.we, t.cl, t.tables, t.pending))
    allPos (fun p t => t.deadlineTest p) s (by intro x t; simp)
  unfold State.testDeadlines
  split
  · simpa using h
  · simp

@[simp] theorem beginStep_frame (s : State) :
    (s.beginStep).power = s.power ∧
    (s.beginStep).mode = s.mode ∧
    (s.beginStep).change = s.change ∧
    (s.beginStep).ss = s.ss ∧
    (s.beginStep).we = s.we ∧
    (s.beginStep).cl = s.cl ∧
    (s.beginStep).ru = s.ru ∧
    (s.beginStep).ou = s.ou ∧
    (s.beginStep).vp = s.vp ∧
    (s.beginStep).tables = s.tables ∧
    (s.beginStep).pending = s.pending := by
  have h : (fun t : State => (t.power, t.mode, t.change, t.ss, t.we, t.cl, t.ru, t.ou, t.vp, t.tables, t.pending)) (s.beginStep) = (fun t : State => (t.power, t.mode, t.change, t.ss, t.we, t.cl, t.ru, t.ou, t.vp, t.tables, t.pending)) s := by
    unfold State.beginStep; simp
  simpa using h

@[simp] theorem handTicks10_frame (s : State) :
    (s.handTicks10).power = s.power ∧
    (s.handTicks10).mode = s.mode ∧
    (s.handTicks10).change = s.change ∧
    (s.handTicks10).ps = s.ps ∧
    (s.handTicks10).lc = s.lc ∧
    (s.handTicks10).sm = s.sm ∧
    (s.handTicks10).ss = s.ss ∧
    (s.handTicks10).we = s.we ∧
    (s.handTicks10).cl = s.cl ∧
    (s.handTicks10).ru = s.ru ∧
    (s.handTicks10).vp = s.vp ∧
    (s.handTicks10).mu = s.mu ∧
    (s.handTicks10).tables = s.tables ∧
    (s.handTicks10).pending = s.pending := by
  have h := foldl_keeps (fun t : State => (t.power, t.mode, t.change, t.ps, t.lc, t.sm, t.ss, t.we, t.cl, t.ru, t.vp, t.mu, t.tables, t.pending))
    s.tb.ticks10 State.outputTick { s with tb := { s.tb with ticks10 := [] } } (by intro t v; simp)
  unfold State.handTicks10
  simpa using h

@[simp] theorem handTicks100_frame (s : State) :
    (s.handTicks100).power = s.power ∧
    (s.handTicks100).mode = s.mode ∧
    (s.handTicks100).change = s.change ∧
    (s.handTicks100).ps = s.ps ∧
    (s.handTicks100).lc = s.lc ∧
    (s.handTicks100).sm = s.sm ∧
    (s.handTicks100).ss = s.ss ∧
    (s.handTicks100).we = s.we ∧
    (s.handTicks100).cl = s.cl ∧
    (s.handTicks100).mu = s.mu ∧
    (s.handTicks100).tables = s.tables ∧
    (s.handTicks100).pending = s.pending := by
  have h := foldl_keeps (fun t : State => (t.power, t.mode, t.change, t.ps, t.lc, t.sm, t.ss, t.we, t.cl, t.mu, t.tables, t.pending))
    s.tb.ticks100 (fun t v => (t.reminderTick v).takeDueMoves) { s with tb := { s.tb with ticks100 := [] } } (by intro t v; simp)
  unfold State.handTicks100
  simpa using h

@[simp] theorem endStep_frame (s : State) :
    (s.endStep).power = s.power ∧
    (s.endStep).mode = s.mode ∧
    (s.endStep).change = s.change ∧
    (s.endStep).ps = s.ps ∧
    (s.endStep).lc = s.lc ∧
    (s.endStep).sm = s.sm ∧
    (s.endStep).ss = s.ss ∧
    (s.endStep).we = s.we ∧
    (s.endStep).cl = s.cl ∧
    (s.endStep).tables = s.tables ∧
    (s.endStep).pending = s.pending := by
  have h : (fun t : State => (t.power, t.mode, t.change, t.ps, t.lc, t.sm, t.ss, t.we, t.cl, t.tables, t.pending)) (s.endStep) = (fun t : State => (t.power, t.mode, t.change, t.ps, t.lc, t.sm, t.ss, t.we, t.cl, t.tables, t.pending)) s := by
    unfold State.endStep; simp
  simpa using h

@[simp] theorem enterHold_frame (s : State) :
    (s.enterHold).power = s.power ∧
    (s.enterHold).change = s.change ∧
    (s.enterHold).ps = s.ps ∧
    (s.enterHold).lc = s.lc ∧
    (s.enterHold).sm = s.sm ∧
    (s.enterHold).ss = s.ss ∧
    (s.enterHold).we = s.we ∧
    (s.enterHold).cl = s.cl ∧
    (s.enterHold).ru = s.ru ∧
    (s.enterHold).mu = s.mu ∧
    (s.enterHold).tables = s.tables ∧
    (s.enterHold).pending = s.pending := by
  have h : (fun t : State => (t.power, t.change, t.ps, t.lc, t.sm, t.ss, t.we, t.cl, t.ru, t.mu, t.tables, t.pending)) (s.enterHold) = (fun t : State => (t.power, t.change, t.ps, t.lc, t.sm, t.ss, t.we, t.cl, t.ru, t.mu, t.tables, t.pending)) s := by
    unfold State.enterHold; simp
  simpa using h

@[simp] theorem resetBuckles_frame (s : State) :
    (s.resetBuckles).power = s.power ∧
    (s.resetBuckles).mode = s.mode ∧
    (s.resetBuckles).change = s.change ∧
    (s.resetBuckles).tb = s.tb ∧
    (s.resetBuckles).ps = s.ps ∧
    (s.resetBuckles).lc = s.lc ∧
    (s.resetBuckles).sm = s.sm ∧
    (s.resetBuckles).ss = s.ss ∧
    (s.resetBuckles).we = s.we ∧
    (s.resetBuckles).cl = s.cl ∧
    (s.resetBuckles).ou = s.ou ∧
    (s.resetBuckles).mu = s.mu ∧
    (s.resetBuckles).tables = s.tables ∧
    (s.resetBuckles).pending = s.pending := by
  have h : (fun t : State => (t.power, t.mode, t.change, t.tb, t.ps, t.lc, t.sm, t.ss, t.we, t.cl, t.ou, t.mu, t.tables, t.pending)) (s.resetBuckles) = (fun t : State => (t.power, t.mode, t.change, t.tb, t.ps, t.lc, t.sm, t.ss, t.we, t.cl, t.ou, t.mu, t.tables, t.pending)) s := by
    unfold State.resetBuckles
    exact (forEach_keeps (fun t : State => (t.power, t.mode, t.change, t.tb, t.ps, t.lc, t.sm, t.ss, t.we, t.cl, t.ou, t.mu, t.tables, t.pending)) _ _ _ (by intro x t; simp))
  simpa using h

@[simp] theorem enterConfig_frame (s : State) :
    (s.enterConfig).power = s.power ∧
    (s.enterConfig).change = s.change ∧
    (s.enterConfig).tb = s.tb ∧
    (s.enterConfig).lc = s.lc ∧
    (s.enterConfig).we = s.we ∧
    (s.enterConfig).mu = s.mu ∧
    (s.enterConfig).tables = s.tables ∧
    (s.enterConfig).pending = s.pending := by
  have h : (fun t : State => (t.power, t.change, t.tb, t.lc, t.we, t.mu, t.tables, t.pending)) (s.enterConfig) = (fun t : State => (t.power, t.change, t.tb, t.lc, t.we, t.mu, t.tables, t.pending)) s := by
    unfold State.enterConfig; simp
  simpa using h

@[simp] theorem enterRun_frame (s : State) :
    (s.enterRun).power = s.power ∧
    (s.enterRun).change = s.change ∧
    (s.enterRun).lc = s.lc ∧
    (s.enterRun).we = s.we ∧
    (s.enterRun).mu = s.mu ∧
    (s.enterRun).tables = s.tables ∧
    (s.enterRun).pending = s.pending := by
  have h : (fun t : State => (t.power, t.change, t.lc, t.we, t.mu, t.tables, t.pending)) (s.enterRun) = (fun t : State => (t.power, t.change, t.lc, t.we, t.mu, t.tables, t.pending)) s := by
    unfold State.enterRun; simp
  simpa using h

@[simp] theorem handResetContents_frame (s : State) :
    (s.handResetContents).power = s.power ∧
    (s.handResetContents).mode = s.mode ∧
    (s.handResetContents).change = s.change ∧
    (s.handResetContents).tb = s.tb ∧
    (s.handResetContents).ps = s.ps ∧
    (s.handResetContents).lc = s.lc ∧
    (s.handResetContents).sm = s.sm ∧
    (s.handResetContents).ss = s.ss ∧
    (s.handResetContents).we = s.we ∧
    (s.handResetContents).cl = s.cl ∧
    (s.handResetContents).ru = s.ru ∧
    (s.handResetContents).ou = s.ou ∧
    (s.handResetContents).mu = s.mu ∧
    (s.handResetContents).tables = s.tables ∧
    (s.handResetContents).pending = s.pending := by
  have h : (fun t : State => (t.power, t.mode, t.change, t.tb, t.ps, t.lc, t.sm, t.ss, t.we, t.cl, t.ru, t.ou, t.mu, t.tables, t.pending)) (s.handResetContents) = (fun t : State => (t.power, t.mode, t.change, t.tb, t.ps, t.lc, t.sm, t.ss, t.we, t.cl, t.ru, t.ou, t.mu, t.tables, t.pending)) s := by
    unfold State.handResetContents; simp
  simpa using h

@[simp] theorem resetRuntime_frame (s : State) :
    (s.resetRuntime).power = s.power ∧
    (s.resetRuntime).change = s.change ∧
    (s.resetRuntime).tb = s.tb ∧
    (s.resetRuntime).lc = s.lc ∧
    (s.resetRuntime).ss = s.ss ∧
    (s.resetRuntime).we = s.we ∧
    (s.resetRuntime).mu = s.mu ∧
    (s.resetRuntime).tables = s.tables ∧
    (s.resetRuntime).pending = s.pending := by
  have h : (fun t : State => (t.power, t.change, t.tb, t.lc, t.ss, t.we, t.mu, t.tables, t.pending)) (s.resetRuntime) = (fun t : State => (t.power, t.change, t.tb, t.lc, t.ss, t.we, t.mu, t.tables, t.pending)) s := by
    unfold State.resetRuntime; simp
  simpa using h

@[simp] theorem storeWord_frame (s : State) (a : Address) (v : Word) :
    (s.storeWord a v).power = s.power ∧
    (s.storeWord a v).mode = s.mode ∧
    (s.storeWord a v).change = s.change ∧
    (s.storeWord a v).tb = s.tb ∧
    (s.storeWord a v).ps = s.ps ∧
    (s.storeWord a v).lc = s.lc ∧
    (s.storeWord a v).sm = s.sm ∧
    (s.storeWord a v).ss = s.ss ∧
    (s.storeWord a v).we = s.we ∧
    (s.storeWord a v).cl = s.cl ∧
    (s.storeWord a v).ru = s.ru ∧
    (s.storeWord a v).vp = s.vp ∧
    (s.storeWord a v).mu = s.mu ∧
    (s.storeWord a v).pending = s.pending := by
  have h : (fun t : State => (t.power, t.mode, t.change, t.tb, t.ps, t.lc, t.sm, t.ss, t.we, t.cl, t.ru, t.vp, t.mu, t.pending)) (s.storeWord a v) = (fun t : State => (t.power, t.mode, t.change, t.tb, t.ps, t.lc, t.sm, t.ss, t.we, t.cl, t.ru, t.vp, t.mu, t.pending)) s := by
    unfold State.storeWord; dsimp only; split <;> simp
  simpa using h

@[simp] theorem writeEffects_frame (s t : State) (a : Address) :
    (s.writeEffects t a).power = s.power ∧
    (s.writeEffects t a).mode = s.mode ∧
    (s.writeEffects t a).change = s.change ∧
    (s.writeEffects t a).tb = s.tb ∧
    (s.writeEffects t a).ps = s.ps ∧
    (s.writeEffects t a).lc = s.lc ∧
    (s.writeEffects t a).sm = s.sm ∧
    (s.writeEffects t a).ss = s.ss ∧
    (s.writeEffects t a).we = s.we ∧
    (s.writeEffects t a).mu = s.mu ∧
    (s.writeEffects t a).tables = s.tables ∧
    (s.writeEffects t a).pending = s.pending := by
  have h : (fun t : State => (t.power, t.mode, t.change, t.tb, t.ps, t.lc, t.sm, t.ss, t.we, t.mu, t.tables, t.pending)) (s.writeEffects t a) = (fun t : State => (t.power, t.mode, t.change, t.tb, t.ps, t.lc, t.sm, t.ss, t.we, t.mu, t.tables, t.pending)) s := by
    unfold State.writeEffects; dsimp only; (repeat' split) <;> simp
  simpa using h

@[simp] theorem writeWord_frame (s : State) (a : Address) (v : Word) :
    (s.writeWord a v).power = s.power ∧
    (s.writeWord a v).mode = s.mode ∧
    (s.writeWord a v).change = s.change ∧
    (s.writeWord a v).tb = s.tb ∧
    (s.writeWord a v).ps = s.ps ∧
    (s.writeWord a v).lc = s.lc ∧
    (s.writeWord a v).sm = s.sm ∧
    (s.writeWord a v).ss = s.ss ∧
    (s.writeWord a v).we = s.we ∧
    (s.writeWord a v).mu = s.mu ∧
    (s.writeWord a v).pending = s.pending := by
  have h : (fun t : State => (t.power, t.mode, t.change, t.tb, t.ps, t.lc, t.sm, t.ss, t.we, t.mu, t.pending)) (s.writeWord a v) = (fun t : State => (t.power, t.mode, t.change, t.tb, t.ps, t.lc, t.sm, t.ss, t.we, t.mu, t.pending)) s := by
    unfold State.writeWord; simp
  simpa using h

@[simp] theorem writeAll_frame (s : State) (ps : List Pos) (w : Fin 4) (v : Word) :
    (s.writeAll ps w v).power = s.power ∧
    (s.writeAll ps w v).mode = s.mode ∧
    (s.writeAll ps w v).change = s.change ∧
    (s.writeAll ps w v).tb = s.tb ∧
    (s.writeAll ps w v).ps = s.ps ∧
    (s.writeAll ps w v).lc = s.lc ∧
    (s.writeAll ps w v).sm = s.sm ∧
    (s.writeAll ps w v).ss = s.ss ∧
    (s.writeAll ps w v).we = s.we ∧
    (s.writeAll ps w v).mu = s.mu ∧
    (s.writeAll ps w v).pending = s.pending := by
  have h1 := forEach_keeps (fun t : State => (t.power, t.mode, t.change, t.tb, t.ps, t.lc, t.sm, t.ss, t.we, t.mu, t.pending))
    ps (fun p t => t.storeWord (.position p w) v) s (by intro x t; simp)
  have h2 (u : State) := forEach_keeps (fun t : State => (t.power, t.mode, t.change, t.tb, t.ps, t.lc, t.sm, t.ss, t.we, t.mu, t.pending))
    ps (fun p t => t.writeEffects s (.position p w)) u (by intro x t; simp)
  have k := (h2 _).trans h1
  unfold State.writeAll
  simpa using k

@[simp] theorem finish_frame (s : State) (w : Work) :
    (s.finish w).power = s.power ∧
    (s.finish w).mode = s.mode ∧
    (s.finish w).change = s.change ∧
    (s.finish w).tb = s.tb ∧
    (s.finish w).ps = s.ps ∧
    (s.finish w).lc = s.lc ∧
    (s.finish w).sm = s.sm ∧
    (s.finish w).ss = s.ss ∧
    (s.finish w).we = s.we ∧
    (s.finish w).cl = s.cl ∧
    (s.finish w).ru = s.ru ∧
    (s.finish w).ou = s.ou ∧
    (s.finish w).vp = s.vp ∧
    (s.finish w).tables = s.tables ∧
    (s.finish w).pending = s.pending := ⟨rfl, rfl, rfl, rfl, rfl, rfl, rfl, rfl, rfl, rfl, rfl, rfl, rfl, rfl, rfl⟩

@[simp] theorem handOver_frame (s : State) (q : RequestRecord) (r : Result) :
    (s.handOver q r).power = s.power ∧
    (s.handOver q r).mode = s.mode ∧
    (s.handOver q r).change = s.change ∧
    (s.handOver q r).tb = s.tb ∧
    (s.handOver q r).ps = s.ps ∧
    (s.handOver q r).lc = s.lc ∧
    (s.handOver q r).sm = s.sm ∧
    (s.handOver q r).ss = s.ss ∧
    (s.handOver q r).we = s.we ∧
    (s.handOver q r).cl = s.cl ∧
    (s.handOver q r).ru = s.ru ∧
    (s.handOver q r).ou = s.ou ∧
    (s.handOver q r).tables = s.tables ∧
    (s.handOver q r).pending = s.pending := ⟨rfl, rfl, rfl, rfl, rfl, rfl, rfl, rfl, rfl, rfl, rfl, rfl, rfl, rfl⟩

@[simp] theorem takeTick10_frame (s : State) :
    (s.takeTick10).power = s.power ∧
    (s.takeTick10).mode = s.mode ∧
    (s.takeTick10).change = s.change ∧
    (s.takeTick10).ps = s.ps ∧
    (s.takeTick10).lc = s.lc ∧
    (s.takeTick10).sm = s.sm ∧
    (s.takeTick10).ss = s.ss ∧
    (s.takeTick10).we = s.we ∧
    (s.takeTick10).cl = s.cl ∧
    (s.takeTick10).tables = s.tables ∧
    (s.takeTick10).pending = s.pending := by
  have h : (fun t : State => (t.power, t.mode, t.change, t.ps, t.lc, t.sm, t.ss, t.we, t.cl, t.tables, t.pending)) (s.takeTick10) = (fun t : State => (t.power, t.mode, t.change, t.ps, t.lc, t.sm, t.ss, t.we, t.cl, t.tables, t.pending)) s := by
    unfold State.takeTick10; dsimp only; (repeat' split) <;> simp
  simpa using h

@[simp] theorem takeTick100_frame (s : State) :
    (s.takeTick100).power = s.power ∧
    (s.takeTick100).mode = s.mode ∧
    (s.takeTick100).change = s.change ∧
    (s.takeTick100).ps = s.ps ∧
    (s.takeTick100).lc = s.lc ∧
    (s.takeTick100).sm = s.sm ∧
    (s.takeTick100).ss = s.ss ∧
    (s.takeTick100).we = s.we ∧
    (s.takeTick100).cl = s.cl ∧
    (s.takeTick100).tables = s.tables ∧
    (s.takeTick100).pending = s.pending := by
  have h : (fun t : State => (t.power, t.mode, t.change, t.ps, t.lc, t.sm, t.ss, t.we, t.cl, t.tables, t.pending)) (s.takeTick100) = (fun t : State => (t.power, t.mode, t.change, t.ps, t.lc, t.sm, t.ss, t.we, t.cl, t.tables, t.pending)) s := by
    unfold State.takeTick100; dsimp only; (repeat' split) <;> simp
  simpa using h

@[simp] theorem goOn_frame (s : State) :
    (s.goOn).power = s.power ∧
    (s.goOn).mode = s.mode ∧
    (s.goOn).change = s.change ∧
    (s.goOn).ss = s.ss ∧
    (s.goOn).we = s.we ∧
    (s.goOn).cl = s.cl ∧
    (s.goOn).tables = s.tables ∧
    (s.goOn).pending = s.pending := by
  have h : (fun t : State => (t.power, t.mode, t.change, t.ss, t.we, t.cl, t.tables, t.pending)) (s.goOn) = (fun t : State => (t.power, t.mode, t.change, t.ss, t.we, t.cl, t.tables, t.pending)) s := by
    unfold State.goOn; dsimp only; (repeat' split) <;> simp
  simpa using h

@[simp] theorem callEntry_frame (s : State) :
    (s.callEntry).power = s.power ∧
    (s.callEntry).mode = s.mode ∧
    (s.callEntry).tb = s.tb ∧
    (s.callEntry).ps = s.ps ∧
    (s.callEntry).lc = s.lc ∧
    (s.callEntry).sm = s.sm ∧
    (s.callEntry).ss = s.ss ∧
    (s.callEntry).we = s.we ∧
    (s.callEntry).cl = s.cl ∧
    (s.callEntry).ru = s.ru ∧
    (s.callEntry).ou = s.ou ∧
    (s.callEntry).vp = s.vp ∧
    (s.callEntry).mu = s.mu ∧
    (s.callEntry).tables = s.tables ∧
    (s.callEntry).pending = s.pending := by
  have h : (fun t : State => (t.power, t.mode, t.tb, t.ps, t.lc, t.sm, t.ss, t.we, t.cl, t.ru, t.ou, t.vp, t.mu, t.tables, t.pending)) (s.callEntry) = (fun t : State => (t.power, t.mode, t.tb, t.ps, t.lc, t.sm, t.ss, t.we, t.cl, t.ru, t.ou, t.vp, t.mu, t.tables, t.pending)) s := by
    unfold State.callEntry; dsimp only; split <;> simp
  simpa using h

@[simp] theorem settleReset_frame (s : State) :
    (s.settleReset).power = s.power ∧
    (s.settleReset).mode = s.mode ∧
    (s.settleReset).tb = s.tb ∧
    (s.settleReset).ps = s.ps ∧
    (s.settleReset).lc = s.lc ∧
    (s.settleReset).sm = s.sm ∧
    (s.settleReset).ru = s.ru ∧
    (s.settleReset).ou = s.ou ∧
    (s.settleReset).tables = s.tables ∧
    (s.settleReset).pending = s.pending := by
  have h : (fun t : State => (t.power, t.mode, t.tb, t.ps, t.lc, t.sm, t.ru, t.ou, t.tables, t.pending)) (s.settleReset) = (fun t : State => (t.power, t.mode, t.tb, t.ps, t.lc, t.sm, t.ru, t.ou, t.tables, t.pending)) s := by
    unfold State.settleReset; simp
  simpa using h

@[simp] theorem putPort_frame (s : State) (q : VehiclePort) :
    (s.putPort q).power = s.power ∧
    (s.putPort q).mode = s.mode ∧
    (s.putPort q).change = s.change ∧
    (s.putPort q).tb = s.tb ∧
    (s.putPort q).ps = s.ps ∧
    (s.putPort q).lc = s.lc ∧
    (s.putPort q).sm = s.sm ∧
    (s.putPort q).ss = s.ss ∧
    (s.putPort q).we = s.we ∧
    (s.putPort q).cl = s.cl ∧
    (s.putPort q).ru = s.ru ∧
    (s.putPort q).ou = s.ou ∧
    (s.putPort q).mu = s.mu ∧
    (s.putPort q).tables = s.tables ∧
    (s.putPort q).pending = s.pending := ⟨rfl, rfl, rfl, rfl, rfl, rfl, rfl, rfl, rfl, rfl, rfl, rfl, rfl, rfl, rfl⟩

@[simp] theorem handStale_frame (s : State) :
    (s.handStale).power = s.power ∧
    (s.handStale).mode = s.mode ∧
    (s.handStale).change = s.change ∧
    (s.handStale).tb = s.tb ∧
    (s.handStale).ps = s.ps ∧
    (s.handStale).lc = s.lc ∧
    (s.handStale).sm = s.sm ∧
    (s.handStale).ss = s.ss ∧
    (s.handStale).we = s.we ∧
    (s.handStale).cl = s.cl ∧
    (s.handStale).ou = s.ou ∧
    (s.handStale).mu = s.mu ∧
    (s.handStale).tables = s.tables ∧
    (s.handStale).pending = s.pending := by
  have h : (fun t : State => (t.power, t.mode, t.change, t.tb, t.ps, t.lc, t.sm, t.ss, t.we, t.cl, t.ou, t.mu, t.tables, t.pending)) (s.handStale) = (fun t : State => (t.power, t.mode, t.change, t.tb, t.ps, t.lc, t.sm, t.ss, t.we, t.cl, t.ou, t.mu, t.tables, t.pending)) s := by
    unfold State.handStale; simp
  simpa using h

@[simp] theorem takeSpeed_frame (s : State) (b : Byte) :
    (s.takeSpeed b).power = s.power ∧
    (s.takeSpeed b).mode = s.mode ∧
    (s.takeSpeed b).change = s.change ∧
    (s.takeSpeed b).tb = s.tb ∧
    (s.takeSpeed b).ps = s.ps ∧
    (s.takeSpeed b).lc = s.lc ∧
    (s.takeSpeed b).sm = s.sm ∧
    (s.takeSpeed b).ss = s.ss ∧
    (s.takeSpeed b).we = s.we ∧
    (s.takeSpeed b).cl = s.cl ∧
    (s.takeSpeed b).ou = s.ou ∧
    (s.takeSpeed b).mu = s.mu ∧
    (s.takeSpeed b).tables = s.tables ∧
    (s.takeSpeed b).pending = s.pending := by
  have h : (fun t : State => (t.power, t.mode, t.change, t.tb, t.ps, t.lc, t.sm, t.ss, t.we, t.cl, t.ou, t.mu, t.tables, t.pending)) (s.takeSpeed b) = (fun t : State => (t.power, t.mode, t.change, t.tb, t.ps, t.lc, t.sm, t.ss, t.we, t.cl, t.ou, t.mu, t.tables, t.pending)) s := by
    unfold State.takeSpeed; dsimp only; (repeat' split) <;> simp
  simpa using h

@[simp] theorem takePowerMode_frame (s : State) (m : PowerMode) :
    (s.takePowerMode m).power = s.power ∧
    (s.takePowerMode m).mode = s.mode ∧
    (s.takePowerMode m).change = s.change ∧
    (s.takePowerMode m).tb = s.tb ∧
    (s.takePowerMode m).ps = s.ps ∧
    (s.takePowerMode m).lc = s.lc ∧
    (s.takePowerMode m).sm = s.sm ∧
    (s.takePowerMode m).ss = s.ss ∧
    (s.takePowerMode m).we = s.we ∧
    (s.takePowerMode m).cl = s.cl ∧
    (s.takePowerMode m).mu = s.mu ∧
    (s.takePowerMode m).tables = s.tables ∧
    (s.takePowerMode m).pending = s.pending := by
  have h : (fun t : State => (t.power, t.mode, t.change, t.tb, t.ps, t.lc, t.sm, t.ss, t.we, t.cl, t.mu, t.tables, t.pending)) (s.takePowerMode m) = (fun t : State => (t.power, t.mode, t.change, t.tb, t.ps, t.lc, t.sm, t.ss, t.we, t.cl, t.mu, t.tables, t.pending)) s := by
    unfold State.takePowerMode; dsimp only; (repeat' split) <;> simp
  simpa using h

end Sys2Proof.Machine
end

