-- ==== Sys2Proof/Laws/Operations.lean ====
section
/-! SUPPORT. What the shared operations do: for each, what it leaves in the fields that its frame lemma does not cover. -/

namespace Sys2Proof.Machine

/-! ## Reports -/

section
variable {κ : Type} [DecidableEq κ]

/-- A due test touches the due mark alone. -/
@[simp] theorem Report.test_does (r : Report κ) (period gap : Nat) :
    (Report.test r period gap).content = r.content ∧ (Report.test r period gap).lastSent = r.lastSent ∧
    (Report.test r period gap).elapsed = r.elapsed ∧ (Report.test r period gap).pending = r.pending ∧
    (Report.test r period gap).due = (r.due || r.dueNow period gap) := by
  unfold Report.test; split <;> simp_all

/-- A hand-over stores the content and touches nothing else but the due mark. -/
@[simp] theorem Report.hand_does (r : Report κ) (c : κ) (period gap : Nat) :
    (Report.hand r c period gap).content = c ∧ (Report.hand r c period gap).lastSent = r.lastSent ∧
    (Report.hand r c period gap).elapsed = r.elapsed ∧ (Report.hand r c period gap).pending = r.pending := by
  unfold Report.hand; split <;> simp_all

/-- A hand-over makes the due test when, and only when, the content changes. -/
theorem Report.hand_due (r : Report κ) (c : κ) (period gap : Nat) :
    (Report.hand r c period gap).due = (r.due || (decide (c ≠ r.content) && Report.dueNow { r with content := c } period gap)) := by
  unfold Report.hand; split <;> simp_all

/-- The tick moves the elapsed count and the due mark. -/
@[simp] theorem Report.tick_does (r : Report κ) (period gap : Nat) :
    (Report.tick r period gap).content = r.content ∧ (Report.tick r period gap).lastSent = r.lastSent ∧
    (Report.tick r period gap).elapsed = min (r.elapsed + 1) 2000 ∧ (Report.tick r period gap).pending = r.pending := by
  simp [Report.tick]

end

/-! ## The Event Queue -/

/-- Marking the newest record keeps the number of records. -/
@[simp] theorem markNewestLost_length (q : List EventRecord) : (markNewestLost q).length = q.length := by
  fun_induction markNewestLost q <;> simp_all

/-- Marking the newest record changes the last record alone. -/
theorem markNewestLost_append (older : List EventRecord) (newest : EventRecord) :
    markNewestLost (older ++ [newest]) = older ++ [{ newest with lost := true }] := by
  induction older with
  | nil => rfl
  | cons a l ih => cases l <;> simp_all [markNewestLost]

/-- An event is taken as the rules of the queue and the slot say. -/
theorem VehiclePort.enqueue_taken (v : VehiclePort) (r : EventRecord) : EventTaken v (v.enqueue r) r := by
  refine ⟨fun hs hq => ?_, fun hs => ?_⟩
  · simp [VehiclePort.enqueue, VehiclePort.refill, hs, hq]
  · obtain ⟨e, he⟩ := Option.ne_none_iff_exists'.mp hs
    unfold VehiclePort.enqueue
    split
    next h => exact ⟨by simp [VehiclePort.refill, he], fun _ => by simp [VehiclePort.refill, he], fun _ _ _ hl => by omega⟩
    next h => exact ⟨rfl, fun hl => absurd hl h, fun older newest hq _ => by simp only [hq, markNewestLost_append]⟩

/-- A refill moves the head of the queue to an empty slot, and changes nothing else. -/
theorem VehiclePort.refill_does (vp : VehiclePort) :
    vp.refill = { vp with
      eventSlot := if vp.eventSlot = none then vp.eventQueue.head? else vp.eventSlot
      eventQueue := if vp.eventSlot = none then vp.eventQueue.tail else vp.eventQueue } := by
  obtain ⟨⟩ := vp
  rename_i slot queue _ _
  cases slot <;> cases queue <;> simp [VehiclePort.refill]

/-- An event touches the slot and the queue alone. -/
theorem VehiclePort.enqueue_does (vp : VehiclePort) (r : EventRecord) :
    vp.enqueue r = { vp with eventSlot := (vp.enqueue r).eventSlot, eventQueue := (vp.enqueue r).eventQueue } := by
  unfold VehiclePort.enqueue
  split
  · rw [VehiclePort.refill_does]
  · rfl

/-- An event changes nothing but VP's slot and queue. -/
theorem queueEvent_does (s : State) (k : EventKind) (a b c : Byte) :
    s.queueEvent k a b c = { s with vp := { s.vp with
      eventSlot := (s.queueEvent k a b c).vp.eventSlot, eventQueue := (s.queueEvent k a b c).vp.eventQueue } } := by
  unfold State.queueEvent
  dsimp only
  rw [← VehiclePort.enqueue_does]

/-! ## Classes, quality flags and suppression -/

/-- A quality update stores the flags in CL's record and in VP's content. -/
theorem setQuality_does (s : State) (p : Pos) (f : Quality → Quality) :
    (s.setQuality p f).cl = upd s.cl p (fun r => { r with quality := f r.quality }) ∧
    (s.setQuality p f).vp = { s.vp with quality := (s.setQuality p f).vp.quality } ∧
    (s.setQuality p f).vp.quality.content = s.vp.quality.content.set p (f s.cl[p].quality) := by
  refine ⟨?_, rfl, ?_⟩
  · simp [State.setQuality, State.handQuality, upd]
  · simp [State.setQuality, State.handQuality]

/-- A change of class stores the class with its suppression state in CL's record. -/
theorem setClass_cl (s : State) (p : Pos) (c : Cls) :
    (s.setClass p c).cl = upd s.cl p fun r => { r with committed := c, supp := c.suppression } := by
  unfold State.setClass
  dsimp only
  split
  · rfl
  · split <;> simp

/-- Giving the suppression states out stores them in OU's copy and in VP's content. -/
theorem giveSuppression_does (s : State) :
    s.giveSuppression.ou = { s.ou with suppA := (s.tables.positionA.map s.suppEntry).map SuppEntry.state } ∧
    s.giveSuppression.vp = { s.vp with suppression := s.giveSuppression.vp.suppression } ∧
    s.giveSuppression.vp.suppression.content =
      { a := s.tables.positionA.map s.suppEntry, b := s.tables.positionB.map s.suppEntry } := by
  refine ⟨rfl, rfl, ?_⟩
  simp [State.giveSuppression]

/-! ## Reminders -/

/-- Handing OU a reminder state stores it and touches only the groups, the cadences and the owner besides. -/
theorem handReminder_does (s : State) (p : Pos) (r : Reminder) :
    (s.handReminder p r).ou.reminders = s.ou.reminders.set p r ∧ (s.handReminder p r).ou.overrides = s.ou.overrides ∧
    (s.handReminder p r).ou.held = s.ou.held ∧ (s.handReminder p r).ou.suppA = s.ou.suppA := by
  have hg : ∀ (t : State) (g : Fin 6), (t.deriveGroup g).ou.reminders = t.ou.reminders ∧
      (t.deriveGroup g).ou.overrides = t.ou.overrides ∧ (t.deriveGroup g).ou.held = t.ou.held ∧
      (t.deriveGroup g).ou.suppA = t.ou.suppA := by
    intro t g; unfold State.deriveGroup; dsimp only; (repeat' split) <;> simp
  have ho : ∀ t : State, t.deriveOwner.ou.reminders = t.ou.reminders ∧ t.deriveOwner.ou.overrides = t.ou.overrides ∧
      t.deriveOwner.ou.held = t.ou.held ∧ t.deriveOwner.ou.suppA = t.ou.suppA := by
    intro t; unfold State.deriveOwner; dsimp only; split <;> simp
  unfold State.handReminder
  dsimp only
  split <;> simp [hg, ho]

/-- Storing a reminder record: the record in RU, and for a new state OU's copy and VP's belt content. -/
theorem putRecord_does (s : State) (p : Pos) (r : ReminderRecord) :
    (s.putRecord p r).ru = { s.ru with records := s.ru.records.set p r } ∧
    (s.putRecord p r).ou.suppA = s.ou.suppA ∧ (s.putRecord p r).ou.overrides = s.ou.overrides ∧
    (s.putRecord p r).vp = { s.vp with belt := (s.putRecord p r).vp.belt } ∧
    (s.putRecord p r).ou.reminders = (if r.state = s.ru.records[p].state then s.ou.reminders else s.ou.reminders.set p r.state) ∧
    (s.putRecord p r).vp.belt.content = (if r.state = s.ru.records[p].state then s.vp.belt.content
      else s.vp.belt.content.set p { buckle := s.ru.buckles[p].confirmed, indication := r.state.indication }) := by
  unfold State.putRecord
  dsimp only
  split
  · simp
  · simp [State.giveBelt, State.handBelt, State.beltContent, handReminder_does]

/-- Storing a position's buckle fields: the fields in RU, and for a new confirmed state VP's belt content. -/
theorem putBuckle_does (s : State) (p : Pos) (b : Buckle) :
    (s.putBuckle p b).ru = { s.ru with buckles := s.ru.buckles.set p b } ∧
    (s.putBuckle p b).vp = { s.vp with belt := (s.putBuckle p b).vp.belt } ∧
    (s.putBuckle p b).vp.belt.content = (if b.confirmed = s.ru.buckles[p].confirmed then s.vp.belt.content
      else s.vp.belt.content.set p { buckle := b.confirmed, indication := s.ru.records[p].state.indication }) := by
  unfold State.putBuckle
  dsimp only
  split
  · simp
  · simp [State.giveBelt, State.handBelt, State.beltContent]

/-! ## The Sample Store -/

/-- A push changes no chain and grows the free list by one. -/
@[simp] theorem SampleStore.push_does (ss : SampleStore) (b : BucketNo) :
    (ss.push b).chains = ss.chains ∧ (ss.push b).freeLen = ss.freeLen + 1 ∧ (ss.push b).freeHead = b ∧
    (ss.push b).evalQueue = ss.evalQueue := ⟨rfl, rfl, rfl, rfl⟩

/-- Returning a chain's oldest bucket takes one from its length, where there is one, and leaves the other chains and the marks. -/
theorem SampleStore.returnHead_does (ss : SampleStore) (p : Pos) :
    (ss.returnHead p).chains[p].len = ss.chains[p].len - 1 ∧
    (ss.returnHead p).freeLen = ss.freeLen + (if ss.chains[p].len = 0 then 0 else 1) ∧
    (ss.returnHead p).evalQueue = ss.evalQueue ∧
    (ss.returnHead p).chains[p] = { ss.chains[p] with
      head := (ss.returnHead p).chains[p].head, tail := (ss.returnHead p).chains[p].tail, len := ss.chains[p].len - 1 } ∧
    ∀ q : Pos, q ≠ p → (ss.returnHead p).chains[q] = ss.chains[q] := by
  have hne : ∀ q : Pos, q ≠ p → ¬ p.val = q.val := fun q h e => h (Fin.ext e.symm)
  by_cases h : ss.chains[p].len = 0
  · have e : ss.returnHead p = ss := by simp only [SampleStore.returnHead, h, if_true]
    have e' : ss.chains[p].len - 1 = ss.chains[p].len := by omega
    rw [e, e']
    exact ⟨rfl, by simp only [h, if_true]; rfl, rfl, rfl, fun _ _ => rfl⟩
  · simp only [SampleStore.returnHead, h, if_false]
    by_cases h1 : ss.chains[p].len = 1
    · simp only [h1, if_true]; simp_all
    · simp only [h1, if_false]; simp_all

/-- Returning the `n` oldest buckets of a chain. -/
theorem SampleStore.returnOldest_does (ss : SampleStore) (p : Pos) (n : Nat) :
    (ss.returnOldest p n).chains[p].len = ss.chains[p].len - n ∧
    (ss.returnOldest p n).freeLen = ss.freeLen + min n ss.chains[p].len ∧
    (ss.returnOldest p n).evalQueue = ss.evalQueue ∧
    (ss.returnOldest p n).chains[p] = { ss.chains[p] with
      head := (ss.returnOldest p n).chains[p].head, tail := (ss.returnOldest p n).chains[p].tail, len := ss.chains[p].len - n } ∧
    ∀ q : Pos, q ≠ p → (ss.returnOldest p n).chains[q] = ss.chains[q] := by
  induction n generalizing ss with
  | zero => simp [SampleStore.returnOldest]
  | succ n ih =>
    obtain ⟨h1, h2, h3, h4, h5⟩ := ih (ss.returnHead p)
    obtain ⟨g1, g2, g3, g4, g5⟩ := ss.returnHead_does p
    simp only [SampleStore.returnOldest]
    refine ⟨by omega, ?_, by rw [h3, g3], ?_, fun q hq => by rw [h5 q hq, g5 q hq]⟩
    · rw [h2, g2, g1]; split <;> omega
    · rw [h4, g4]; simp only [Chain.mk.injEq, and_self, and_true, true_and]; omega

/-- Storing a sample at the tail of a chain. -/
theorem SampleStore.store_does (ss : SampleStore) (p : Pos) (x : PlaceSample) (now : Time) :
    (ss.store p x now).freeLen = ss.freeLen - 1 ∧ (ss.store p x now).freeHead = ss.buckets[ss.freeHead].next ∧
    (ss.store p x now).evalQueue = ss.evalQueue ∧
    (ss.store p x now).chains[p] = { ss.chains[p] with
      head := if ss.chains[p].len = 0 then ss.freeHead else ss.chains[p].head, tail := ss.freeHead, len := ss.chains[p].len + 1 } ∧
    (∀ q : Pos, q ≠ p → (ss.store p x now).chains[q] = ss.chains[q]) ∧
    (ss.store p x now).buckets[ss.freeHead].sample = x ∧ (ss.store p x now).buckets[ss.freeHead].time = now := by
  have hne : ∀ q : Pos, q ≠ p → ¬ p.val = q.val := fun q h e => h (Fin.ext e.symm)
  unfold SampleStore.store filledBucket
  refine ⟨rfl, rfl, rfl, by simp, fun q hq => by simp [hne q hq], ?_, ?_⟩ <;>
    (dsimp only; split <;> simp [upd, Vector.getElem_set]; try (split <;> simp_all))

/-- The scheduling test touches the position's scheduled flag and the queue alone. -/
theorem SampleStore.schedule_does (ss : SampleStore) (p : Pos) (w : Nat) :
    ss.schedule p w = (if w ≤ ss.chains[p].len ∧ ss.chains[p].scheduled = false then
      { ss with chains := ss.chains.set p { ss.chains[p] with scheduled := true }, evalQueue := ss.evalQueue ++ [p] } else ss) := rfl

/-- A flush empties the chain, moves its epoch on and returns every bucket; the loss flag and the other chains stay. -/
theorem SampleStore.flush_does (ss : SampleStore) (p : Pos) :
    (ss.flush p).chains[p] = { ss.chains[p] with
      head := 0, tail := 0, len := 0, epoch := ss.chains[p].epoch + 1
      scheduled := ss.chains[p].scheduled && ss.chains[p].underEval } ∧
    (ss.flush p).freeLen = ss.freeLen + ss.chains[p].len ∧
    (ss.flush p).evalQueue =
      (if ss.chains[p].scheduled && !ss.chains[p].underEval then ss.evalQueue.filter (· != p) else ss.evalQueue) ∧
    ∀ q : Pos, q ≠ p → (ss.flush p).chains[q] = ss.chains[q] := by
  obtain ⟨-, h2, h3, h4, h5⟩ := ss.returnOldest_does p ss.chains[p].len
  have hne : ∀ q : Pos, q ≠ p → ¬ p.val = q.val := fun q h e => h (Fin.ext e.symm)
  unfold SampleStore.flush
  dsimp only
  rw [h4]
  simp only [Fin.getElem_fin] at *
  split
  · next h =>
    have hs : (ss.chains[p.val].scheduled && ss.chains[p.val].underEval) = false := by
      revert h; cases ss.chains[p.val].scheduled <;> cases ss.chains[p.val].underEval <;> simp
    exact ⟨by simp [hs], by simpa using h2, by simp [h3], fun q hq => by simp [hne q hq, h5 q hq]⟩
  · next h =>
    have hs : (ss.chains[p.val].scheduled && ss.chains[p.val].underEval) = ss.chains[p.val].scheduled := by
      revert h; cases ss.chains[p.val].scheduled <;> cases ss.chains[p.val].underEval <;> simp
    exact ⟨by simp [hs], by simpa using h2, by simp [h3], fun q hq => by simp [hne q hq, h5 q hq]⟩

/-! ## The line -/

/-- A tick counts, measures the idle run, settles the candidate, and touches the poll's window and byte alone. -/
@[simp] theorem LineController.tick_does (l : LineController) (b : Bool) :
    (l.tick b).clock = l.clock + 1 ∧ (l.tick b).idleRun = (if b then l.idleRun + 1 else 0) ∧
    (l.tick b).candidate = l.candidateAfter b ∧ (l.tick b).buffer = l.buffer ∧
    (l.tick b).poll = l.poll.map fun p => p.sampled l.clock b := ⟨rfl, rfl, rfl, rfl, rfl⟩

/-- No sample passes while an event is due. -/
theorem LineController.pass_cons {l : LineController} {b : Bool} {rest : Samples} (h : l.event = none) :
    l.pass (b :: rest) = (l.tick b).pass rest := by
  simp [LineController.pass, h]

/-- Samples that pass are counted; the buffer stays, and the poll but for its window and its byte. -/
theorem LineController.pass_does {line : Samples} {l m : LineController} (h : l.pass line = some m) :
    m.clock = l.clock + line.length ∧ m.buffer = l.buffer ∧
    m.poll = l.poll.map fun p => { p with
      windowFresh := (m.poll.map Poll.windowFresh).getD p.windowFresh, byte := (m.poll.map Poll.byte).getD p.byte } := by
  induction line generalizing l with
  | nil => cases h; cases hp : m.poll <;> simp
  | cons b rest ih =>
    unfold LineController.pass at h
    split at h
    · cases h
    · obtain ⟨h1, h2, h3⟩ := ih h
      refine ⟨by rw [h1]; simp; omega, by rw [h2]; rfl, ?_⟩
      rw [h3]
      cases hp : l.poll <;> simp [LineController.tick, hp, Poll.sampled]

/-- With no poll in flight every sample passes. -/
theorem LineController.pass_idle (line : Samples) (l : LineController) (h : l.poll = none) : (l.pass line).isSome = true := by
  induction line generalizing l with
  | nil => rfl
  | cons b rest ih =>
    rw [LineController.pass_cons (by simp [LineController.event, h])]
    exact ih _ (by simp [h])

/-- A command of the line whose samples pass and bring about its event. -/
theorem onLine_next {s t : State} {line : Samples} {f : State → Poll → LineEvent → Option State} {l : LineController} {p : Poll}
    {e : LineEvent} (hs : s.power = .on) (hl : s.lc.pass line = some l) (hp : l.poll = some p) (he : l.event = some e)
    (hf : f (s.putLine l) p e = some t) : onLine s line f = .next t := by
  simp [onLine, hl, hp, he, hf, hs]

/-- A command of a byte whose stop bit is still to come brings its samples, the stop bit last. -/
theorem LineController.toStopBit_of_pass {l m : LineController} {line : Samples} {stop : Bool}
    (h : l.pass (line ++ [stop]) = some m) : l.toStopBit line stop = line ++ [stop] := by
  have he : l.event ≠ some .stopBit := fun he => by cases line <;> simp [LineController.pass, he] at h
  simp [LineController.toStopBit, he]

/-- A command of a byte whose stop bit has been sampled brings no sample. -/
theorem LineController.toStopBit_of_sampled {l : LineController} (h : l.event = some .stopBit) :
    l.toStopBit [] l.lastLevel = [] := by simp [LineController.toStopBit, h]

/-! ## The evaluations -/

/-- The head of the queue holds a full window: its evaluation starts. -/
theorem takeHead_full {s : State} {p : Pos} {rest : List Pos} (h : s.windowFull p = true) :
    s.takeHead (p :: rest) = { s with
      we := some (s.captureEvaluation p)
      ss := { s.ss with evalQueue := rest, chains := upd s.ss.chains p fun c => { c with underEval := true } } } := by
  simp [State.takeHead, h]

/-- The head of the queue is stale: it is dropped and the next one is looked at. -/
theorem takeHead_stale {s : State} {p : Pos} {rest : List Pos} (h : s.windowFull p = false) :
    s.takeHead (p :: rest) =
      State.takeHead { s with ss := { s.ss with chains := upd s.ss.chains p fun c => { c with scheduled := false } } } rest := by
  simp [State.takeHead, h]

/-! ## Requests -/

/-- An IDLE MU accepts a whole frame and serves it. -/
theorem accept_served {s : State} {level : Level} {data : List Byte} (h : malformedData data = false) :
    s.accept level data =
      (s.serve (requestRecord level data)).1.serving (requestRecord level data) (s.serve (requestRecord level data)).2 := by
  simp [State.accept, h]

/-- A SERVING MU discards the frame and sets the overlap flag. -/
theorem handRequest_discarded {s : State} {level : Level} {data : List Byte} (h : s.mu.service.isSome = true) :
    s.handRequest level data = { s with mu := { s.mu with overlap := true } } := by
  obtain ⟨v, hv⟩ := Option.isSome_iff_exists.mp h
  simp [State.handRequest, hv]

/-- A frame on a request identifier, under a row that its bytes name, at a powered part. -/
theorem onRequest_next {s : State} {f : CanFrame} {row : Bool} {level : Level} (hp : s.power = .on)
    (hl : s.vp.requestLevel f = some level) (hr : row = true) :
    onRequest s f row = .next (s.thenInputs f (s.handRequest level f.data)) := by
  simp [onRequest, hp, hl, hr, State.receive, State.takeRequest]

end Sys2Proof.Machine
end

