-- ==== Sys2Proof/Tests/Slice0.lean ====
section
/-! SUPPORT. Tests of the model on values of the spec's own worked examples, the checks of WellFormed on ill-formed commands, and for
each statement with hypotheses a concrete state and operands that meet them. -/

namespace Sys2Proof.Machine.Tests

set_option Elab.async false

open Sys2Proof Sys2Proof.Machine

/-! ## States and frames of the tests -/

/-- The state after a command; `s` itself where the command gave none. -/
def after (c : Instr) (s : State) : State :=
  match exec c s with
  | .next t => t
  | .fault _ => s
  | .refused _ => s

/-- The part right after reset, put in mode `m`. -/
def inMode (m : Mode) : State := { State.reset with mode := m }

/-- Table entries of a small van: position 0 at station 1 place 0, position 1 at station 1 place 1 and airbag-relevant. -/
def smallVan : Tables :=
  { positions := ((Vector.replicate 16 {}).set 0 { station := some 0, applicable := true, lampGroup := some 0, chimePriority := 10 }).set 1
      { station := some 0, place := 1, applicable := true, airbag := true }
    schedule := (Vector.replicate 64 none).set 0 (some 0) }

/-- Its Node Map: station 1 ACTIVE with node 42 and two places. -/
def smallNodes : Vector Node 8 := (Vector.replicate 8 {}).set 0 { state := .active, nodeId := 42, places := 2 }

/-- The small van in mode `m`, with its routing and the fitted positions UNKNOWN. -/
def van (m : Mode) : State :=
  { State.reset with
    mode := m
    tables := smallVan
    sm := { nodes := smallNodes, routing := smallVan.buildRouting }
    cl := ((Vector.replicate 16 {}).set 0 { committed := .unknown, supp := .indeterminate }).set 1
      { committed := .unknown, supp := .indeterminate } }

/-- A reminder record of position 0 in the small van, in RUN with the ignition on and Cabin Time `now`. -/
def reminding (now : Time) (r : ReminderRecord) : State :=
  { van .run with
    tb := { time := now }
    vp := { (van .run).vp with powerMode := .run }
    ru := { records := (Vector.replicate 16 {}).set 0 r } }

/-- The small van with the poll `p` in flight. -/
def polling (p : Poll) (l : LineController) : State := { van .run with lc := { l with poll := some p } }

/-- MU serving `w`. -/
def served (s : State) (w : Work) : State :=
  s.serving { level := .service, echo := 0x51, kind := 5, tag := 1, id := 0, entry := 0, word := 0, value := 0, mask := 0 } w

/-- A request of kind `kind` with table id, entry, word and value, and the tag 1. -/
def record (level : Level) (kind : Nat) (id entry word : Byte) (value : Word) (mask : Word := 0) : RequestRecord :=
  { level, echo := byteOf (16 * kind + 1), kind, tag := 1, id, entry, word, value, mask }

/-- A service request at a part with both straps low. -/
def service (kind : Nat) (id entry word : Byte) (value : Word) (mask : Word := 0) : CanFrame :=
  requestFrame 0x640 (record .service kind id entry word value mask)

/-- An operational one. -/
def operational (kind : Nat) (id entry word : Byte) (value : Word) (mask : Word := 0) : CanFrame :=
  requestFrame 0x640 (record .operational kind id entry word value mask)

/-- `n` ticks of a quiet line. -/
def quiet (n : Nat) : Samples := List.replicate n true

/-- The samples of a byte that follow its start bit's confirmation: ticks 3 to 37 after the first low sample. -/
def levels (b : Byte) : Samples := (((byteLevels b).flatMap (List.replicate 4)).drop 3).take 35

/-- The status MU has for the request in service. -/
def answer (s : State) : Option Result :=
  match s.mu.service with
  | some { req := _, work := .result r } => some r
  | _ => none

/-! ## WellFormed -/

theorem test_wf_refuses_nine_bytes : (Instr.speedFrame { ident := 0x210, data := List.replicate 9 0 }).wf = false ∧
    (Instr.powerModeFrame { ident := 0x120, data := List.replicate 9 0 }).wf = false ∧
    (Instr.requestDiscarded 0x641 (List.replicate 9 0)).wf = false ∧
    (Instr.malformedRequest 0x641 (List.replicate 9 0)).wf = false := by decide

theorem test_wf_refuses_a_sound_request_as_malformed :
    (Instr.malformedRequest 0x641 [0x11, 1, 0, 0, 0, 0, 0, 0]).wf = false := by decide

theorem test_wf_refuses_a_write_under_another_row :
    ((service 2 1 0 0 0).under .writeWord).wf = false ∧ ((service 2 9 0 1 0).under .writeWord).wf = false ∧
    ((service 2 1 0 1 0).under .writePositionStation).wf = false ∧
    ((service 2 2 0 3 0).under .writeAirbagRelevant).wf = false ∧
    ((service 2 9 0 1 0).under .writeOverrideEnable).wf = false ∧
    ((service 2 9 0 0 0).under .writeOverrideLatched).wf = false := by decide

theorem test_wf_refuses_a_mode_under_another_row :
    ((service 4 2 0 0 0).under .setModeRun).wf = false ∧ ((service 4 0 0 0 0).under .setModeHold).wf = false ∧
    ((service 4 1 0 0 0).under .setModeConfig).wf = false := by decide

theorem test_wf_refuses_another_kind : ((service 2 7 0 10 4).under .readWord).wf = false ∧ ((service 2 1 0 1 0).under .writeMasked).wf = false ∧
    ((service 6 0 1 0 0).under .step).wf = false ∧ ((service 5 0 1 0 0).under .reidentify).wf = false ∧
    ((service 4 0 0 0 0).under .resetRuntime).wf = false ∧ (Instr.readWord 0x640 [0x11]).wf = false := by decide

theorem test_wf_refuses_a_low_sample_that_is_high : (Instr.lineLowSample [false, true]).wf = false ∧ (Instr.lineLowSample []).wf = false ∧
    (Instr.lineLowSample [true, false]).wf = true := by decide

theorem test_wf_accepts_each_row_of_its_own :
    ((service 2 7 0 10 4).under .writeWord).wf = true ∧ ((service 2 1 0 0 1).under .writePositionStation).wf = true ∧
    ((service 4 3 0 0 0).under .setModeRun).wf = true ∧ (Instr.malformedRequest 0x641 []).wf = true := by decide

/-! ## Codes, checks and frames: the spec's worked values -/

/-- R22's table of polls. -/
theorem test_poll_frames : pollFrame 2 .sample 5 = [0xB4, 0x03, 0x15, 0x54] ∧ pollFrame 0 .identify 0 = [0xB4, 0x01, 0x20, 0xF5] := by
  decide +kernel

/-- R17 and R21: LC drives SYNC, 0xB4, as a start bit, its bits from the least significant, and a stop bit, four ticks each. -/
theorem test_driven_sync :
    ([0, 4, 8, 12, 16, 20, 24, 28, 32, 36, 39, 40] : List Nat).map (fun n => ({ clock := 100 + n, poll := some {
      station := 2, kind := .sample, slotStart := 0, sequenceSent := some 5, phase := .sending, sentAt := 100 } } : LineController).drive) =
    [false, false, false, true, false, true, true, false, true, true, true, false].map some := by decide +kernel

/-- R28's test of the CRC-16. -/
theorem test_crc16 : crc16 [0x31, 0x32, 0x33, 0x34, 0x35, 0x36, 0x37, 0x38, 0x39] = 0x29B1 := by decide +kernel

/-- The accepted bands of spec/02, at their ends, for stations 1 and 8. -/
theorem test_latency_bands : hopOk 0 91 = false ∧ hopOk 0 92 = true ∧ hopOk 0 100 = true ∧ hopOk 0 101 = false ∧
    hopOk 7 203 = false ∧ hopOk 7 204 = true ∧ hopOk 7 212 = true ∧ hopOk 7 213 = false := by decide

/-- R26's table of expected lengths. -/
theorem test_expected_lengths : expectedLength [0xB4, 42, 0x15, 4] = some 42 ∧ expectedLength [0xB4, 42, 0x25, 9] = some 7 ∧
    expectedLength [0xB4, 42, 0x15, 5] = none ∧ expectedLength [0xB4, 42, 0x35, 1] = none ∧ expectedLength [0xB4, 42, 0x15] = none := by
  decide

/-- The example of spec/12: the first two bytes 0x2C and 0x05 hold cell 0 = 300. -/
theorem test_place_record : (decodeRecord [0x2C, 0x05, 0, 0, 0, 0, 0, 0x60, 1]).cells[0] = 300 ∧
    (decodeRecord [0x2C, 0x05, 0, 0, 0, 0, 0, 0x60, 1]).tag = .forward ∧
    (decodeRecord [0x2C, 0x05, 0, 0, 0, 0, 0, 0x60, 1]).disturbed = true ∧
    (decodeRecord [0x2C, 0x05, 0, 0, 0, 0, 0, 0x60, 1]).buckle = .latched := by decide +kernel

/-- The worked suppression frames of spec/09. -/
theorem test_suppression_frames :
    suppressionFrame { a := some { pos := 1, state := .enable, cls := .adult }, b := some { pos := 4, state := .suppress, cls := .childSeatRear } } 7
      = #v[0x01, 0x01, 0x04, 0x02, 0x06, 0x03, 0x07, 0xE7] ∧
    suppressionFrame { a := some { pos := 1, state := .enable, cls := .adult }, b := none } 14
      = #v[0x01, 0x01, 0xFF, 0xFF, 0x06, 0xFF, 0x0E, 0xEC] := by decide +kernel

/-- The class frame of R176's example. -/
theorem test_class_frame :
    packNibbles (fun p => Cls.code (if p = 0 then .adult else if p = 1 then .childSeatRear else .notConfigured))
      = #v[0x36, 0xFF, 0xFF, 0xFF, 0xFF, 0xFF, 0xFF, 0xFF] := by decide +kernel

/-- R177's example: HOP_MISMATCH at 400 ticks gives bytes 2 and 3 of 0x90 and 0x01. -/
theorem test_hop_mismatch_event :
    eventFrame { kind := .hopMismatch, subject := 4, detail0 := byteOf (400 % 256), detail1 := byteOf (400 / 256), stamp := 0x010203, lost := true }
      = #v[0x85, 4, 0x90, 0x01, 0x03, 0x02, 0x01, 0] := by decide +kernel

/-- R176's nibbles, the even position low: LATCHED with a lamp beside UNKNOWN and expired; ROUGH with LINK_DOWN beside SAMPLE_LOSS. -/
theorem test_status_nibbles :
    packNibbles (fun p => BeltContent.nibble (if p = 0 then { buckle := some .latched, indication := .lamp } else
      if p = 1 then { buckle := none, indication := .expired } else { buckle := some .opened, indication := .none }))
      = #v[0xF5, 0, 0, 0, 0, 0, 0, 0] ∧
    packNibbles (fun p => Quality.nibble (if p = 0 then { rough := true, linkDown := true } else
      if p = 1 then { sampleLoss := true } else {})) = #v[0x29, 0, 0, 0, 0, 0, 0, 0] := by decide +kernel

/-- R136's table of bases. -/
theorem test_bases : identifierBase 0 = 0x640 ∧ identifierBase 1 = 0x660 ∧ identifierBase 2 = 0x680 ∧ identifierBase 3 = 0x6A0 := by decide

/-- R138: the low two bits name the power mode. -/
theorem test_power_modes : powerModeOf 0xFC = .off ∧ powerModeOf 0xFD = .accessory ∧ powerModeOf 0x02 = .run ∧ powerModeOf 0xFF = .crank := by
  decide

/-! ## Windows and classes -/

/-- A sample of spec/05's worked window. -/
def windowSample (a b c d e f : Nat) : PlaceSample := { cells := #v[a, b, c, d, e, f] }

/-- Its bank and its calibration. -/
def workedEvaluation : Evaluation :=
  { pos := 2, epoch := 7, bank := { w := 4, h := 2 }, offsets := #v[40, 35, 50, 45, 30, 60], gains := #v[64, 64, 64, 64, 32, 32] }

/-- The worked window of spec/05. -/
theorem test_worked_window :
    windowResult [windowSample 300 280 410 390 120 100, windowSample 310 270 420 380 110 95, windowSample 295 285 400 395 130 90,
      windowSample 320 290 430 410 140 110] workedEvaluation = { lbar := 1293, spread := 93, fmin := 5, disturbed := false, tag := none } := by
  decide +kernel

/-- The limit cases of spec/05: full scale, the largest mean and the smallest non-zero one. -/
theorem test_limit_windows :
    sampleLoad (windowSample 1023 1023 1023 1023 1023 1023) { workedEvaluation with offsets := Vector.replicate 6 0, gains := Vector.replicate 6 255 } = 16383 ∧
    meanLoad (List.replicate 16 16383) 16 = 16383 ∧ meanLoad [0, 0, 1, 3, 3] 5 = 1 ∧ spreadOf [0, 0, 1, 3, 3] = 3 := by decide +kernel

/-- Samples with these tags. -/
def tagged (tags : List Tag) : List PlaceSample := tags.map fun t => { tag := t }

/-- The worked votes of spec/05: the tie and the unreadable reading fall to REARWARD. -/
theorem test_votes :
    windowTag (tagged [.forward, .forward, .none, .none]) 4 = none ∧
    windowTag (tagged [.none, .rearward, .unreadable, .forward, .forward]) 5 = some .rearward ∧
    windowTag (tagged [.forward, .forward, .forward, .unreadable, .none]) 5 = some .forward := by decide

/-- The effective thresholds of R85's table, and its clamps. -/
theorem test_effective_thresholds :
    (effectiveObj {} .unknown, effectiveAdult {} .unknown) = (200, 1100) ∧ (effectiveObj {} .empty, effectiveAdult {} .empty) = (260, 1160) ∧
    (effectiveObj {} .object, effectiveAdult {} .object) = (140, 1160) ∧ (effectiveObj {} .adult, effectiveAdult {} .adult) = (140, 1040) ∧
    effectiveObj { tObj := 50 } .adult = 0 ∧ effectiveAdult { tAdult := 16383 } .empty = 16383 := by decide

/-- Windows 3 and 9 of spec/06's worked sequence. -/
theorem test_confirmation :
    rawClass {} .adult { lbar := 1020, spread := 120, fmin := 4, disturbed := false, tag := none } = .smallOccupant ∧
    ClassRecord.confirmation { committed := .adult } .smallOccupant 3 = (none, some .smallOccupant, 1) ∧
    ClassRecord.confirmation { committed := .adult, candidate := some .smallOccupant, confirm := 2 } .smallOccupant 3 = (some .smallOccupant, none, 0) ∧
    ClassRecord.confirmation { committed := .smallOccupant } .childSeatRear 3 = (some .childSeatRear, none, 0) := by decide

/-! ## Table words and views -/

/-- R178's examples and the defaults' words. -/
theorem test_position_words :
    PositionEntry.read {} 1 = 0x0007 ∧ PositionEntry.read { lampGroup := some 0, applicable := true } 1 = 0x0100 ∧
    PositionEntry.read { station := some 0, place := 1 } 0 = 0x0011 ∧
    inRange (positionLayout 1) 0x0006 = false ∧ inRange (positionLayout 0) 0x0009 = false ∧ inRange (positionLayout 0) 0x0041 = false := by
  decide +kernel

/-- R179's example: station 4 ACTIVE with node 42 and three places. -/
theorem test_node_view : Node.view { state := .active, nodeId := 42, places := 3 } 0 = 0x2A31 ∧ Node.view {} 1 = 0x00FF := by decide

/-- The worked view read of spec/12. -/
theorem test_worked_view :
    let s : State := { State.reset with
      ss := { State.reset.ss with
        buckets := State.reset.ss.buckets.set 62 { time := 265492 }
        chains := State.reset.ss.chains.set 9 { head := 61, tail := 62, len := 2, epoch := 3 } }
      cl := State.reset.cl.set 9 { committed := .smallOccupant, lastL := 850, lastD := 40, lastF := 5, lastRaw := .smallOccupant }
      ru := { State.reset.ru with
        buckles := State.reset.ru.buckles.set 9
          { last := some .opened, confirmed := some .opened, captureTime := 260012, captureSpeed := 40, captureState := some .opened }
        records := State.reset.ru.records.set 9 { state := .stage2, timer := 896, entryTime := 265012 } } }
    ([0, 1, 2, 3, 4, 5, 6, 7, 8, 9, 10, 11] : List (Fin 12)).map (fun w => s.readAt (.context 9 w)) =
      [0x0005, 0x8352, 0x0028, 0x0055, 0x3E3D, 0x0302, 0x4380, 0x2800, 0xF7AC, 0x0D14, 0, 0] := by decide +kernel

/-- R180's words of a position that is not fitted, after power-on reset. -/
theorem test_reset_view :
    ([0, 1, 2, 3, 6, 7] : List (Fin 12)).map (fun w => State.reset.readAt (.context 0 w)) = [0x000F, 0x8000, 0, 0xF000, 0, 0x0030] := by
  decide +kernel

/-! ## One step of each family -/

theorem test_cabin_time_wraps :
    (after .cabinTimeAdvance { inMode .run with tb := { time := 0xFFFFFFFF, slotTimer := 1, slotStarts := 0 } }).tb =
      { time := 0, slotTimer := 2, slotStarts := 1, ticks10 := [0], ticks100 := [0] } := by decide +kernel

/-- The visit at Cabin Time 1018 of spec/03's worked walk: the second visit of a station that is not ACTIVE, at a divider of 2. -/
theorem test_probe_at_the_divider :
    let s : State := { van .run with
      tables := { smallVan with globals := { probeDivider := 2 } }
      sm := { (van .run).sm with nodes := (Vector.replicate 8 {}).set 0 { state := .linkLost, probe := 1 } } }
    (after (.slotStart []) s).lc.poll = some { station := 0, kind := .identify, slotStart := 0 } ∧
    (after (.slotStart []) s).sm.nodes[(0 : Station)].probe = 0 := by decide +kernel

theorem test_first_slot_sweeps_station_one :
    (after (.slotStart []) State.reset).lc.poll = some { station := 0, kind := .identify, slotStart := 0 } ∧
    (after (.slotStart []) State.reset).ps.sweep = 1 := by decide +kernel

/-- Step 1 of spec/03's worked steps: from 5097 with the slot timer at 3 and a period of 4. -/
theorem test_worked_step :
    let s : State := served { van .hold with
        tables := { smallVan with globals := { slotPeriod := 4, scheduleLength := 3 } }
        tb := { time := 5097, slotTimer := 3, slotStarts := 0 }
        ps := { slotIndex := 2 } } (.stepping { count := 4, remaining := 4 })
    (after (.stepAdvance []) s).tb = { time := 5101, slotTimer := 3, slotStarts := 0, ticks10 := [5100], ticks100 := [5100] } ∧
    (after (.stepAdvance []) s).ps.slotIndex = 0 := by decide +kernel

theorem test_flash_counter_wraps :
    (after .tick10ms { van .run with tb := { ticks10 := [20] }, ou := { flash := 99 } }).ou.flash = 0 ∧
    (after .tick10ms { van .run with tb := { ticks10 := [20] }, ou := { flash := 5, flashTime := 20 } }).ou.flash = 5 ∧
    (after .tick10ms { van .config with tb := { ticks10 := [20] }, ou := { flash := 5 } }).ou.flash = 5 := by decide +kernel

theorem test_stage_timer_counts :
    ((after .tick100ms { reminding 200 { state := .stage1, timer := 2, entryTime := 150 } with tb := { time := 200, ticks100 := [200] } }).ru.records[(0 : Pos)]).timer = 1 ∧
    ((after .tick100ms { reminding 200 { state := .stage1, timer := 2, entryTime := 200 } with tb := { time := 200, ticks100 := [200] } }).ru.records[(0 : Pos)]).timer = 2 ∧
    ((after .tick100ms { reminding 200 { state := .stage2, timer := 1, entryTime := 150 } with tb := { time := 200, ticks100 := [200] } }).ru.records[(0 : Pos)]).expiring = true := by
  decide +kernel

/-- STAGE_2 loads stage2_max × 10 = 900, and its lamp flashes with the chime. -/
theorem test_stage_expiry :
    ((after (.stageExpiry 0) (reminding 700 { state := .stage1, timer := 1, expiring := true })).ru.records[(0 : Pos)]).timer = 900 ∧
    (after (.stageExpiry 0) (reminding 700 { state := .stage1, timer := 1, expiring := true })).lampLine 0 = true ∧
    (after (.stageExpiry 0) (reminding 700 { state := .stage1, timer := 1, expiring := true })).chimeLine = true := by decide +kernel

/-- R103: leaving the stages, by a latch, an expiry or a class of UNKNOWN, clears the stage entry time. -/
theorem test_stage_entry_time_is_cleared : let r : ReminderRecord := { state := .stage2, timer := 1, entryTime := 500, expiring := true }
    ((reminding 700 r).latch 0).ru.records[(0 : Pos)] = { state := .buckled } ∧
    (after (.stageExpiry 0) (reminding 700 r)).ru.records[(0 : Pos)] = { state := .expired } ∧
    ((reminding 700 r).reminderClass 0 .adult .unknown).ru.records[(0 : Pos)] =
      { state := .suspended, remembered := some .stage2, timer := 1 } := by decide +kernel

theorem test_pending_trigger :
    ((after (.pendingTrigger 0) (reminding 700 { state := .pending, triggered := true })).ru.records[(0 : Pos)]) =
      { state := .stage1, timer := 200, entryTime := 700 } := by decide +kernel

theorem test_grace_deadline_across_the_wrap :
    ((after (.graceDeadlineReached 0) (reminding 3 { state := .pending, deadline := some 0xFFFFFFFE })).ru.records[(0 : Pos)]).state = .stage2 ∧
    ((after (.graceDeadlineReached 0) (reminding 0xFFFFFFFD { state := .pending, deadline := some 0xFFFFFFFE })).ru.records[(0 : Pos)]).state = .pending := by
  decide +kernel

/-- R115: an unbuckle at speed places the deadline grace × 100 ms after the capture. -/
theorem test_unbuckle_at_speed :
    let s : State := { reminding 260012 { state := .buckled } with
      vp := { (van .run).vp with powerMode := .run, speed := 40, staleness := 0 }
      ru := { (reminding 260012 { state := .buckled }).ru with
        buckles := (Vector.replicate 16 {}).set 0 { last := some .opened, confirmed := some .latched } } }
    ((s.buckleReading 0 .opened).ru.records[(0 : Pos)]).deadline = some 263012 ∧
    (s.buckleReading 0 .opened).ru.buckles[(0 : Pos)] =
      { last := some .opened, confirmed := some .opened, captureTime := 260012, captureSpeed := 40, captureState := some .opened } := by
  decide +kernel

/-- A poll of station 3 that has been sent with sequence 5. -/
def sentPoll : Poll :=
  { station := 2, kind := .sample, slotStart := 0, sequenceSent := some 5, phase := .receiving, latency := some 127, sentAt := 0,
    pollEnd := 160, byteStart := some 287 }

theorem test_poll_is_sent_after_eighty_ticks :
    let s := polling { station := 4, kind := .sample, slotStart := 30 } { clock := 40, idleRun := 10 }
    let t : State := { s with sm := { s.sm with nodes := s.sm.nodes.set 4 { state := .active, sequence := 15 } } }
    ((after (.pollSend (quiet 70)) t).lc.poll.map Poll.sentAt) = some 110 ∧
    ((after (.pollSend (quiet 70)) t).sm.nodes[(4 : Station)]).sequence = 0 ∧ (after (.pollSend (quiet 69)) t).lc = t.lc := by
  decide +kernel

theorem test_line_busy_is_a_miss :
    let s := polling { station := 0, kind := .sample, slotStart := 0 } { clock := 750, idleRun := 0 }
    (after (.lineBusy (quiet 50)) s).lc.poll = none ∧ ((after (.lineBusy (quiet 50)) s).sm.nodes[(0 : Station)]).misses = 1 ∧
    (after (.lineBusy (quiet 49)) s).lc = s.lc := by decide +kernel

theorem test_poll_end_opens_the_window :
    let s := polling { sentPoll with phase := .sending, byteStart := none } { clock := 0, buffer := [1] }
    ((after (.pollEnd (quiet 160)) s).lc.poll.map Poll.phase) = some .listening ∧ (after (.pollEnd (quiet 160)) s).lc.buffer = [] := by
  decide +kernel

/-- R24: the latency is the tick count of the first low sample, 0 for a line that is low at once. -/
theorem test_start_bit_latency :
    let s := polling { sentPoll with phase := .listening, byteStart := none, latency := none, windowFresh := true } { clock := 160 }
    ((after (.replyStartBit (quiet 127 ++ [false, false, false])) s).lc.poll.bind Poll.latency) = some 127 ∧
    ((after (.replyStartBit [false, true, false]) s).lc.poll.bind Poll.latency) = some 0 := by
  decide +kernel

/-- R18 and R24: a start bit at 400 is taken; a line that stays high to 400, or shows one low sample at 50, gives no reply. -/
theorem test_window_closes_at_four_hundred :
    let s := polling { sentPoll with phase := .listening, byteStart := none, latency := none, windowFresh := true } { clock := 160, idleRun := 4 }
    ((after (.replyStartBit (quiet 400 ++ [false, false, false])) s).lc.poll.bind Poll.latency) = some 400 ∧
    (after (.noReply (quiet 401)) s).lc.poll = none ∧ (after (.noReply (quiet 50 ++ [false] ++ quiet 350)) s).lc.poll = none ∧
    (after (.replyStartBit (quiet 50 ++ [false] ++ quiet 348 ++ [false, false])) s).lc = s.lc := by
  decide +kernel

theorem test_byte_zero_must_be_sync :
    (after (.replyByteRead (levels 0xB5) true) (polling sentPoll { clock := 290 })).lc.poll = none ∧
    (after (.replyByteRead (levels 0xB4) true) (polling sentPoll { clock := 290 })).lc.buffer = [0xB4] := by decide +kernel

/-- R25: a stop bit that a LINE_LOW_SAMPLE has brought ends the reply as FRAMING under the byte's row, which brings no sample then. -/
theorem test_low_stop_bit_is_framing :
    let s := polling sentPoll { clock := 290 }
    let t := after (.lineLowSample (levels 0xB4 ++ [false])) s
    t.lc.poll.isSome = true ∧ (after (.replyByteRead [] false) t).lc.poll = none ∧
    (after (.replyReceived [] false) t).lc.poll = none ∧ (after (.replyByteRead [] false) t).lc.clock = t.lc.clock ∧
    (after (.replyByteRead [] false) t).lc.buffer = [] ∧ (after (.replyByteRead [] true) t).lc = t.lc := by decide +kernel

/-- R26 to R30: the last byte of a good IDENTIFY reply of node 42 with two places at station 3, whose CRC-16 is computed here. -/
theorem test_identify_activates :
    let body : List Byte := [42, 0x25, 2, 0]
    let crc := crc16 body
    let hi : Byte := (crc >>> (8 : Nat)).setWidth 8
    let t := after (.replyReceived (levels (crc.setWidth 8)) true)
      (polling { sentPoll with kind := .identify } { clock := 290, buffer := 0xB4 :: body ++ [hi] })
    t.lc.poll = none ∧ (t.sm.nodes[(2 : Station)]).state = .active ∧ (t.sm.nodes[(2 : Station)]).nodeId = 42 ∧
    (t.sm.nodes[(2 : Station)]).latency = 127 ∧ (t.vp.eventSlot.map EventRecord.kind) = some .stationFound := by decide +kernel

theorem test_no_reply_at_the_retry_limit :
    let s := polling { sentPoll with station := 0, phase := .listening, byteStart := none, latency := none } { clock := 500 }
    let t := after (.noReply (quiet 61)) { s with sm := { s.sm with nodes := s.sm.nodes.set 0 { state := .active, nodeId := 42, places := 2, misses := 2 } } }
    (t.sm.nodes[(0 : Station)]).state = .linkLost ∧ (t.cl[(1 : Pos)]).quality.linkDown = true ∧ (t.cl[(2 : Pos)]).quality.linkDown = false ∧
    (t.ss.chains[(0 : Pos)]).epoch = 1 ∧ (t.vp.eventSlot.map EventRecord.kind) = some .linkLost := by decide +kernel

theorem test_low_sample_breaks_the_idle_run :
    (after (.lineLowSample (quiet 5 ++ [false])) { inMode .run with lc := { clock := 10, idleRun := 70 } }).lc = { clock := 16, idleRun := 0, candidate := some 15 } := by
  decide +kernel

/-- R52: the free-list head takes the sample, as at GOOD 1 of spec/04's worked sequence. -/
theorem test_arrival_takes_the_free_head :
    (((van .run).arrive 0 {}).ss.chains[(0 : Pos)]) = { head := 1, tail := 1, len := 1 } ∧ ((van .run).arrive 0 {}).ss.freeHead = 2 := by
  decide +kernel

theorem test_evaluation_starts_on_a_full_window :
    let s : State := { van .run with ss := { State.reset.ss with evalQueue := [0], chains := State.reset.ss.chains.set 0 { head := 1, tail := 8, len := 8, scheduled := true, epoch := 7 } } }
    ((after .evaluationStart s).we.map fun e => (e.pos, e.epoch, e.gains[(5 : Fin 6)])) = some (0, 7, 64) ∧
    ((after .evaluationStart { s with tables := { smallVan with bankA := { w := 9 } } }).ss.chains[(0 : Pos)]).scheduled = false := by decide +kernel

/-- R57: behind a stale head the next full position starts at once. -/
theorem test_stale_head_gives_way :
    let s : State := { van .run with ss := { State.reset.ss with evalQueue := [0, 1], chains := (State.reset.ss.chains.set 0 { len := 7, scheduled := true }).set 1 { len := 8, scheduled := true } } }
    ((after .evaluationStart s).we.map Evaluation.pos) = some 1 ∧ (after .evaluationStart s).ss.evalQueue = [] ∧
    ((after .evaluationStart s).ss.chains[(0 : Pos)]).scheduled = false := by decide +kernel

theorem test_completion_returns_h_buckets :
    let s : State := { van .run with
      we := some { pos := 0, epoch := 7, bank := { w := 2, h := 2 }, offsets := Vector.replicate 6 0, gains := Vector.replicate 6 64 }
      ss := { State.reset.ss with freeHead := 3, freeLen := 253, chains := State.reset.ss.chains.set 0 { head := 1, tail := 2, len := 2, scheduled := true, underEval := true, epoch := 7 } } }
    ((after .evaluationCompletion s).ss.chains[(0 : Pos)]).len = 0 ∧ (after .evaluationCompletion s).ss.freeLen = 255 ∧
    (after .evaluationCompletion s).ss.freeHead = 2 ∧ ((after .evaluationCompletion s).cl[(0 : Pos)]).committed = .empty ∧
    (after .evaluationCompletion s).we = none := by decide +kernel

theorem test_speed_goes_stale :
    (after .vpMsTick { inMode .run with vp := { State.reset.vp with staleness := 999, speed := 3 } }).vp.staleDue = true ∧
    (after .vpMsTick { inMode .run with vp := { State.reset.vp with staleness := 999, speed := 255 } }).vp.staleDue = false := by decide +kernel

/-- The row at 5050 of spec/09's worked status timing: changed content, 20 ms after the last frame. -/
theorem test_status_frame_after_its_gap :
    let s : State := { inMode .run with vp := { State.reset.vp with cls := { content := (Vector.replicate 16 .notConfigured).set 7 .empty, lastSent := some (Vector.replicate 16 .notConfigured), elapsed := 19, pending := false } } }
    (after .vpMsTick s).vp.cls.due = true ∧ (after (.statusFrameDue .cls) (after .vpMsTick s)).vp.cls.pending = true := by decide +kernel

theorem test_bus_off_after_thirty_two_failures :
    let s : State := { inMode .run with vp := { State.reset.vp with failures := 31, wire := some { payload := .event, ident := 0x647, data := Vector.replicate 8 0 } } }
    (after .transmitFailure s).vp.busOff = true ∧ (after .transmitFailure s).vp.wire = none ∧
    (after .busOffRecovery { s with vp := { s.vp with busOff := true, busOffCount := 200 } }).vp.busOff = false := by decide +kernel

/-- R147: the suppression frame goes first, and a transmitted one moves the rolling counter from 14 to 0. -/
theorem test_suppression_goes_first :
    ((after .transmitStart State.reset).vp.wire.map Attempt.ident) = some 0x643 ∧
    (after .transmitSuccess { inMode .run with vp := { State.reset.vp with rolling := 14, wire := some { payload := .suppression {}, ident := 0x643, data := Vector.replicate 8 0 } } }).vp.rolling = 0 ∧
    (after .lostArbitration { inMode .run with vp := { State.reset.vp with rolling := 14, wire := some { payload := .suppression {}, ident := 0x643, data := Vector.replicate 8 0 } } }).vp.rolling = 14 := by
  decide +kernel

theorem test_speed_frame_triggers :
    ((after (.speedFrame { ident := 0x210, data := [10] }) { reminding 5 { state := .pending } with vp := { (van .run).vp with powerMode := .run, staleness := 0 } }).ru.records[(0 : Pos)]).triggered = true ∧
    ((after (.speedFrame { ident := 0x210, data := [9] }) { reminding 5 { state := .pending } with vp := { (van .run).vp with powerMode := .run, staleness := 0 } }).ru.records[(0 : Pos)]).triggered = false := by
  decide +kernel

theorem test_ignition_off_clears :
    (after (.powerModeFrame { ident := 0x120, data := [1] }) (reminding 5 { state := .stage1, timer := 3 })).ru.records[(0 : Pos)].state = .inactive ∧
    (after (.powerModeFrame { ident := 0x120, data := [3] }) (reminding 5 { state := .stage1, timer := 3 })).ru.records[(0 : Pos)].state = .stage1 := by
  decide +kernel

/-! ## Management, from the worked configuration session of spec/10 -/

theorem test_tag_5_range : answer (after ((service 2 3 0 0 20).under .writeWord) State.reset) = some { status := .range } := by decide +kernel

theorem test_tag_8_conflict :
    answer (after ((service 2 1 1 0 1).under .writePositionStation) (van .config)) = some { status := .conflict, detail5 := 0 } := by decide +kernel

theorem test_tag_9_station :
    answer (after ((service 2 1 2 0 0x21).under .writePositionStation) (van .config)) = some { status := .ok, data := 0x21 } ∧
    ((after ((service 2 1 2 0 0x21).under .writePositionStation) (van .config)).cl[(2 : Pos)]).committed = .unknown := by decide +kernel

theorem test_tag_10_masked :
    answer (after ((service 3 1 0 1 0x0100 3).under .writeMasked) State.reset) = some { status := .ok, data := 0x0100, detail5 := 2 } := by
  decide +kernel

theorem test_tag_11_not_present : answer (after ((operational 1 1 1 3 0).under .readWord) State.reset) = some { status := .notPresent } := by
  decide +kernel

theorem test_tag_12_airbag :
    answer (after ((service 2 1 0 3 1).under .writeAirbagRelevant) (van .config)) = some { status := .ok, data := 1 } ∧
    (after ((service 2 1 0 3 1).under .writeAirbagRelevant) (van .config)).vp.suppression.content =
      { a := some { pos := 0, state := .indeterminate, cls := .unknown }, b := some { pos := 1, state := .indeterminate, cls := .unknown } } := by
  decide +kernel

theorem test_tag_13_mode : answer (after ((service 6 0 2 0 0).under .reidentify) State.reset) = some { status := .mode } := by decide +kernel

/-- Tag 14: the schedule leaves out the station of position 0. -/
theorem test_tag_14_invalid_tables :
    answer (after ((operational 4 1 0 0 0).under .setModeRun) { van .config with tables := { smallVan with schedule := Vector.replicate 64 (some 1) } }) =
      some { status := .invalidTables, detail5 := 1, detail6 := 0, detail7 := 0 } := by decide +kernel

theorem test_tag_16_run :
    answer (after ((operational 4 1 0 0 0).under .setModeRun) (van .config)) = some { status := .ok, data := 1 } ∧
    (after ((operational 4 1 0 0 0).under .setModeRun) (van .config)).mode = .run := by decide +kernel

theorem test_tag_17_mode : answer (after ((operational 2 3 0 8 2).under .writeWord) (van .run)) = some { status := .mode } := by decide +kernel

theorem test_tag_18_reidentify :
    answer (after ((operational 6 0 2 0 0).under .reidentify) (van .run)) = some { status := .ok, data := 2 } ∧
    answer (after ((operational 6 0 2 0 0).under .reidentify) { van .run with ps := { onDemand := [1] } }) = some { status := .ok, data := 2, detail5 := 1 } := by
  decide +kernel

theorem test_hold_waits_for_the_line :
    (after ((operational 4 2 0 0 0).under .setModeHold) (polling sentPoll {})).change = .holdSettling ∧
    (after ((operational 4 2 0 0 0).under .setModeHold) (polling sentPoll {})).mode = .hold ∧
    answer (after ((operational 4 2 0 0 0).under .setModeHold) (van .run)) = some { status := .ok, data := 2 } := by decide +kernel

theorem test_config_refused_while_stale :
    answer (after ((service 4 0 0 0 0).under .setModeConfig) (van .run)) = some { status := .moving } ∧
    answer (after ((operational 4 0 0 0 0).under .setModeConfig) (van .run)) = some { status := .notPresent } := by decide +kernel

/-- spec/11's worked change: with nothing in flight the entry is made at acceptance. -/
theorem test_config_entered_at_acceptance :
    let s : State := { van .run with vp := { (van .run).vp with staleness := 0 } }
    (after ((service 4 0 0 0 0).under .setModeConfig) s).mode = .config ∧
    answer (after ((service 4 0 0 0 0).under .setModeConfig) s) = some { status := .ok, data := 0 } ∧
    (after ((service 4 0 0 0 0).under .setModeConfig) (polling sentPoll s.lc)).mode = .run := by decide +kernel

/-- R175: the bytes of a request, value and mask low byte first; base + 0 is operational and base + 1 service (R136). -/
theorem test_request_record :
    requestRecord .service [0x35, 1, 9, 2, 0x34, 0x12, 0x78, 0x56] =
      { level := .service, echo := 0x35, kind := 3, tag := 5, id := 1, entry := 9, word := 2, value := 0x1234, mask := 0x5678 } ∧
    (van .run).vp.requestLevel { ident := 0x640, data := [] } = some .operational ∧
    (van .run).vp.requestLevel { ident := 0x641, data := [] } = some .service ∧
    (van .run).vp.requestLevel { ident := 0x642, data := [] } = none := by decide

/-- R137: a frame that passes two tests is a request and a vehicle input. -/
theorem test_frame_of_two_tests :
    let s : State := { van .run with tables := { smallVan with speedInput := { ident := 0x640, byteIndex := 4 } } }
    (after ((operational 1 7 0 0 9).under .readWord) s).vp.speed = 9 ∧
    answer (after ((operational 1 7 0 0 9).under .readWord) s) = some { status := .ok, data := 2 } := by decide +kernel

theorem test_step_count :
    answer (after ((operational 5 0 17 0 0).under .step) (van .hold)) = some { status := .range } ∧
    answer (after ((operational 5 0 1 0 0).under .step) (van .run)) = some { status := .mode } := by decide +kernel

theorem test_override_latched_in_run :
    answer (after ((operational 2 9 6 1 1).under .writeOverrideLatched) (van .run)) = some { status := .ok, data := 1 } ∧
    answer (after ((operational 2 9 6 0 1).under .writeOverrideEnable) (van .run)) = some { status := .mode } := by decide +kernel

theorem test_override_drives_the_chime :
    (after ((operational 2 9 6 0 1).under .writeOverrideEnable)
      { van .config with ou := { overrides := (Vector.replicate 7 {}).set 6 { latched := true } } }).chimeLine = true := by decide +kernel

theorem test_discard_sets_overlap :
    (after (Instr.requestDiscarded 0x641 []) (served (van .run) (.result { status := .ok }))).mu.overlap = true ∧
    answer (after (Instr.malformedRequest 0x641 []) (van .run)) = some { status := .malformed } := by decide +kernel

/-- The response of tag 21: OK, 3, OVERLAP set, HOLD. -/
theorem test_response_of_a_step :
    (after .responseHandover { served (van .hold) (.result { status := .ok, data := 3 }) with
        mu := { (served (van .hold) (.result { status := .ok, data := 3 })).mu with overlap := true } }).vp.response =
      some #v[0x51, 0, 5, 3, 0, 0, 0, 0] := by decide +kernel

theorem test_reset_runtime_keeps_the_tables :
    let s : State := { van .run with vp := { (van .run).vp with staleness := 0 } }
    (after ((service 7 0 0 0 0).under .resetRuntime) s).mode = .config ∧
    (after ((service 7 0 0 0 0).under .resetRuntime) s).tables = smallVan ∧
    ((after ((service 7 0 0 0 0).under .resetRuntime) s).sm.nodes[(0 : Station)]).state = .absent := by decide +kernel

theorem test_reset_holds_the_lines_low :
    (after .resetNLow (van .run)).suppressLine = false ∧ (after .cabinTimeAdvance (after .resetNLow (van .run))).tb.time = 0 ∧
    (after (.resetNRelease 2) (after .resetNLow (van .run))).vp.base = 0x680 ∧ (after .powerLoss (van .run)).power = .off := by decide +kernel

theorem test_no_word_spells_a_command : decodeTableWord 8 0 = none ∧ decodeTableWord 64 0x11 = none := by decide

/-! ## Witnesses: states and operands that meet the hypotheses of the statements -/

theorem witness_StepRunsTheFrontCommand :
    ({ State.reset with pending := [.tick10ms, .slotStart []] } : State).pending = .tick10ms :: [.slotStart []] ∧ State.reset.pending = [] := by decide

theorem witness_PowerOnReset : (after .resetNLow (van .run)).power = .inReset := by decide +kernel

theorem witness_ResetLowAndPowerLoss : State.reset.power = .on ∧ State.reset.power ≠ .off ∧ (after .resetNLow State.reset).power ≠ .off ∧
    (∀ straps, Instr.tick10ms ≠ .powerOnReset straps ∧ Instr.tick10ms ≠ .resetNRelease straps) ∧ Instr.tick10ms ≠ .powerLoss :=
  ⟨by decide, by decide, by decide +kernel, fun _ => ⟨nofun, nofun⟩, nofun⟩

theorem witness_CabinTimeAdvance : (van .run).power = .on ∧ (van .run).mode ≠ .hold ∧ (van .run).tb.slotTimer = 2 ∧
    ({ van .config with tb := { slotTimer := 1 } } : State).mode ≠ .hold ∧ (van .hold).mode = .hold := by decide

/-- The small van in RUN with station 1's record `n`. -/
def visiting (n : Node) : State := { van .run with sm := { (van .run).sm with nodes := (Vector.replicate 8 {}).set 0 n } }

theorem witness_SlotStart_run (n : Node) : (visiting n).power = .on ∧ (visiting n).mode = .run ∧ 0 < (visiting n).tb.slotStarts ∧
    (visiting n).lc.poll = none ∧ 1 ≤ (visiting n).tables.globals.scheduleLength ∧ (visiting n).tables.globals.scheduleLength ≤ 64 ∧
    (visiting n).tables.schedule[(visiting n).ps.slotIndex] = some 0 ∧ (visiting n).sm.nodes[(0 : Station)] = n :=
  ⟨rfl, rfl, Nat.zero_lt_one, rfl, Nat.le_refl 1, Nat.le_add_left 1 63, rfl, rfl⟩

/-- The three branches of a station entry, the last two on either side of the probe divider. -/
theorem witness_SlotStart_branches : (Node.state { state := .active } = .active) ∧
    (visiting { probe := 3 }).tables.globals.probeDivider ≤ ((visiting { probe := 3 }).sm.nodes[(0 : Station)]).probe + 1 ∧
    ¬ (visiting { probe := 2 }).tables.globals.probeDivider ≤ ((visiting { probe := 2 }).sm.nodes[(0 : Station)]).probe + 1 := by decide

/-- An open slot, with the On-Demand Queue empty and not. -/
theorem witness_SlotStart_open : let s : State := { inMode .run with ps := { onDemand := [3] } }
    s.power = .on ∧ s.mode = .run ∧ 0 < s.tb.slotStarts ∧ s.lc.poll = none ∧ 1 ≤ s.tables.globals.scheduleLength ∧
    s.tables.globals.scheduleLength ≤ 64 ∧ s.tables.schedule[s.ps.slotIndex] = none ∧ s.ps.onDemand = [3] ∧ (inMode .run).ps.onDemand = [] := by
  decide

theorem witness_SlotStart_config : State.reset.power = .on ∧ State.reset.mode = .config ∧ 0 < State.reset.tb.slotStarts ∧
    State.reset.lc.poll = none := by decide

/-- The small van in mode `m` with a chime owner and a 10 ms tick at 20. -/
def ticking (m : Mode) : State := { van m with tb := { ticks10 := [20] }, ou := { owner := some 0, flash := 99, chime := 98 } }

theorem witness_TenMillisecondTick : (ticking .run).power = .on ∧ (ticking .run).tb.ticks10 = 20 :: [] ∧ (ticking .run).mode = .run ∧
    (ticking .config).tb.ticks10 = 20 :: [] ∧ (ticking .config).mode = .config := by decide

/-- In HOLD: no step has settled where MU serves none, nor while a position still waits for its evaluation. -/
theorem witness_unsettled (req : RequestRecord) (run : StepRun) : (ticking .hold).power = .on ∧ (ticking .hold).mode = .hold ∧
    (ticking .hold).tb.ticks10 = 20 :: [] ∧ ¬ (ticking .hold).StepSettled req run ∧
    ¬ ({ van .hold with ss := { (van .hold).ss with evalQueue := [0] } } : State).StepSettled req run :=
  ⟨rfl, rfl, rfl, by simp [State.StepSettled, ticking, van, State.reset, State.fresh], by simp [State.StepSettled]⟩

/-- A 100 ms tick at `v`, with a stage of position 0 entered at 200 and its timer at `t`. -/
def counting (t : Nat) (v : Time) : State :=
  { reminding v { state := .stage1, timer := t, entryTime := 200 } with tb := { time := v, ticks100 := [v] } }

theorem witness_HundredMillisecondTick : (counting 1 300).power = .on ∧ (counting 1 300).mode ≠ .hold ∧ (counting 1 300).tb.ticks100 = 300 :: [] ∧
    (∀ p : Pos, (counting 1 300).ru.records[p].expiring = false ∧ (counting 1 300).ru.records[p].triggered = false) ∧
    2 ^ 31 ≤ (((counting 1 300).ru.records[(0 : Pos)]).entryTime - 300).toNat ∧
    ¬ 2 ^ 31 ≤ (((counting 2 200).ru.records[(0 : Pos)]).entryTime - 200).toNat := by decide +kernel

/-- The small van in HOLD, serving a STEP. -/
def stepping (run : StepRun) : State := served { van .hold with tb := { time := 5097, slotTimer := 2, slotStarts := 0 } } (.stepping run)

theorem witness_StepAdvanceBegins : let s := stepping { count := 4, remaining := 3 + 1 }
    s.power = .on ∧ s.mode = .hold ∧ s.lc.poll = none ∧ (∃ req, s.mu.service = some { req, work := .stepping { count := 4, remaining := 3 + 1, inStep := false, deadlinesTested := false } }) ∧
    1 ≤ s.tb.slotTimer ∧ s.tb.slotTimer ≤ s.tables.globals.slotPeriod :=
  ⟨rfl, rfl, rfl, ⟨_, rfl⟩, by decide, by decide⟩

/-- A step of that van in progress, with `left` steps behind it, a 10 ms and a 100 ms tick, and a reminder whose deadline 5097 is. -/
def settled (left : Nat) (tested : Bool) : State :=
  { stepping { count := 4, remaining := left, inStep := true, deadlinesTested := tested } with
    tb := { time := 5097, slotTimer := 2, slotStarts := 0, ticks10 := [5090], ticks100 := [5000] }
    ru := { records := (Vector.replicate 16 {}).set 0 { state := .pending, deadline := some 5097 } } }

/-- The last step and a middle one, with the deadline test made and not; and a step that still waits for an evaluation. -/
theorem witness_StepAdvanceEnds (left : Nat) (tested : Bool) : (settled left tested).power = .on ∧
    (∃ req, (settled left tested).StepSettled req { count := 4, remaining := left, inStep := true, deadlinesTested := tested }) ∧
    (settled left tested).tb.ticks10 = 5090 :: [] ∧ (settled left tested).tb.ticks100 = 5000 :: [] ∧
    (∀ p : Pos, (settled left tested).ru.records[p].expiring = false ∧ (settled left tested).ru.records[p].triggered = false) ∧
    (let w : State := { settled left tested with ss := { (van .hold).ss with evalQueue := [0] } }
     w.mode = .hold ∧ (∃ req, w.mu.service = some { req, work := .stepping { count := 4, remaining := left, inStep := true, deadlinesTested := tested } }) ∧
       ∀ req run, ¬ w.StepSettled req run) :=
  ⟨rfl, ⟨_, rfl, rfl, rfl, rfl, rfl, rfl⟩, rfl, rfl, (by decide : ∀ p : Pos, (settled 0 true).ru.records[p].expiring = false ∧ (settled 0 true).ru.records[p].triggered = false), rfl, ⟨_, rfl⟩, by simp [State.StepSettled]⟩

/-- A middle step: its deadline test moves the reminder before its ticks, and the next step begins in the same command. -/
theorem test_middle_step : (after (.stepAdvance []) (settled 2 false)).tb.time = 5099 ∧
    (after (.stepAdvance []) (settled 2 false)).ru.records[(0 : Pos)] = { state := .stage2, timer := 900, entryTime := 5097 } ∧
    (after .tick10ms (settled 2 false)).ru.records[(0 : Pos)] = { state := .stage2, timer := 900, entryTime := 5097 } ∧
    (after .tick10ms (settled 2 true)).ru.records[(0 : Pos)] = { state := .pending, deadline := some 5097 } := by decide +kernel

theorem witness_Trigger : let s := reminding 700 { state := .pending, triggered := true }
    s.power = .on ∧ s.ru.records[(0 : Pos)].triggered = true ∧ s.ru.records[(0 : Pos)].state = .pending ∧
    s.ru.records[(0 : Pos)].deadline = none := by decide

theorem witness_StageExpiry : let s := reminding 700 { state := .stage1, timer := 1, expiring := true }
    let t := reminding 700 { state := .stage2, timer := 1, expiring := true }
    s.power = .on ∧ s.ru.records[(0 : Pos)].expiring = true ∧ s.ru.records[(0 : Pos)].state = .stage1 ∧
    t.power = .on ∧ t.ru.records[(0 : Pos)].expiring = true ∧ t.ru.records[(0 : Pos)].state = .stage2 := by decide

/-- The millisecond at which the deadline is reached, and the one before it. -/
theorem witness_ReachedDeadline : let s := reminding 263012 { state := .pending, deadline := some 263012 }
    let t := reminding 263011 { state := .pending, deadline := some 263012 }
    s.power = .on ∧ s.mode = .run ∧ s.ru.records[(0 : Pos)].state = .pending ∧ s.ru.records[(0 : Pos)].deadline = some 263012 ∧
    (s.tb.time - 263012).toNat < 2 ^ 31 ∧ t.ru.records[(0 : Pos)].deadline = some 263012 ∧ 2 ^ 31 ≤ (t.tb.time - 263012).toNat := by decide

/-- In HOLD: the moment of the test in a settled step, and no moment once it is made; and none in CONFIG. -/
theorem witness_DeadlineMoments : (∃ req run, (settled 2 false).StepSettled req run ∧ run.deadlinesTested = false) ∧
    (settled 2 false).ru.records[(0 : Pos)].state = .pending ∧ (settled 2 false).ru.records[(0 : Pos)].deadline = some 5097 ∧
    ((settled 2 false).tb.time - 5097).toNat < 2 ^ 31 ∧
    ¬ ((settled 2 true).mode = .run ∨ ∃ req run, (settled 2 true).StepSettled req run ∧ run.deadlinesTested = false) ∧
    ¬ ((van .config).mode = .run ∨ ∃ req run, (van .config).StepSettled req run ∧ run.deadlinesTested = false) :=
  ⟨⟨_, _, ⟨rfl, rfl, rfl, rfl, rfl, rfl⟩, rfl⟩, rfl, rfl, by decide,
   (by
    rintro (h | ⟨req, run, ⟨-, -, -, -, h, -⟩, ht⟩)
    · cases h
    · cases h
      cases ht),
   (by rintro (h | ⟨req, run, ⟨h, -⟩, -⟩) <;> cases h)⟩

/-- A power-mode frame with value `b`. -/
def powerFrame (b : Byte) : CanFrame := { ident := 0x120, data := [b] }

theorem witness_PowerMode : let on := reminding 5 { state := .pending }
    let off := van .run
    on.power = .on ∧ on.vp.busOff = false ∧ (powerFrame 1).ident = on.tables.powerInput.ident ∧
    (powerFrame 1).data[on.tables.powerInput.byteIndex.val]? = some 1 ∧ (powerFrame 1).ident ≠ on.vp.base ∧
    (powerFrame 1).ident ≠ on.vp.base + 1 ∧ (powerModeOf 1).ignition = false ∧ on.ignitionOn = true ∧
    (powerModeOf 3).ignition = on.ignitionOn ∧ (powerModeOf 2).ignition = true ∧ off.ignitionOn = false := by decide

/-- With the ignition coming on, position 0 becomes applicable with its belt open, its trigger holding at the stale speed and not
holding at speed 0, or with its belt latched; position 2, which is not fitted, does not. -/
theorem witness_BecomesApplicable : let off : State := { van .run with cl := (van .run).cl.set 0 { committed := .adult, supp := .enable } }
    let slow : State := { off with vp := { off.vp with staleness := 5 } }
    let latched : State := { off with ru := { off.ru with buckles := off.ru.buckles.set 0 { confirmed := some .latched } } }
    off.ru.records[(0 : Pos)].state = .inactive ∧ off.mode ≠ .config ∧ (off.entry 0).station.isSome = true ∧ (off.entry 0).applicable = true ∧
    off.cl[(0 : Pos)].committed.person (off.entry 0).childCheck = true ∧ (off.entry 2).station.isSome = false ∧
    (off.profileOf 0).speedOn ≤ off.speedReading.toNat ∧ slow.speedReading.toNat < (slow.profileOf 0).speedOn ∧
    slow.ru.ignitionCount < (slow.profileOf 0).pendingDelay * 10 ∧ latched.ru.buckles[(0 : Pos)].confirmed = some .latched := by decide +kernel

/-- A class handed to a reminder that escalates, is closed, or is suspended with each remembered state. -/
theorem witness_ReminderClass (r : ReminderRecord) : (reminding 5 r).ru.records[(0 : Pos)] = r ∧ Cls.empty ≠ .unknown ∧
    Cls.empty.person false = false ∧ Cls.adult ≠ .unknown ∧ Cls.adult.person false = true ∧
    ((reminding 5 r).entry 0).childCheck = false ∧ ((reminding 5 r).entry 0).station.isSome = true ∧
    ((reminding 5 r).entry 0).applicable = true ∧ (reminding 5 r).mode ≠ .config ∧ (reminding 5 r).ignitionOn = true ∧
    (reminding 5 r).ru.buckles[(0 : Pos)].confirmed ≠ some .latched :=
  ⟨rfl, nofun, rfl, nofun, rfl, rfl, rfl, rfl, nofun, rfl, nofun⟩

/-- The deadline test of a position that resumes: reached at 5, not reached at 6. -/
theorem witness_PendingTested : ((5 : Time) - 5).toNat < 2 ^ 31 ∧ 2 ^ 31 ≤ ((5 : Time) - 6).toNat ∧
    triggerAt {} 10 0 ∧ triggerAt {} 0 600 ∧ ¬ triggerAt {} 9 599 := by
  unfold triggerAt
  decide

/-- Position 0 with the buckle fields `b`. -/
def buckled (b : Buckle) (r : ReminderRecord) : State :=
  { reminding 5 r with ru := { (reminding 5 r).ru with buckles := (Vector.replicate 16 {}).set 0 b } }

theorem witness_BuckleReading : let s := buckled { last := some .latched, confirmed := some .opened } { state := .stage1 }
    let t := buckled { last := some .opened, confirmed := some .latched } { state := .buckled }
    s.ru.buckles[(0 : Pos)].last = some .latched ∧ s.ru.buckles[(0 : Pos)].confirmed ≠ some .latched ∧ s.ru.records[(0 : Pos)].state = .stage1 ∧
    t.ru.buckles[(0 : Pos)].last = some .opened ∧ t.ru.buckles[(0 : Pos)].confirmed = some .latched ∧ t.ru.records[(0 : Pos)].state = .buckled ∧
    (t.profileOf 0).retrigger = true ∧ (t.profileOf 0).speedOn ≤ t.speedReading.toNat ∧ 1 ≤ (t.profileOf 0).grace ∧
    (t.profileOf 0).grace ≤ 255 ∧ s.ru.buckles[(0 : Pos)].last ≠ some .opened ∧ s.ru.buckles[(0 : Pos)].confirmed = some .opened := by decide

/-- An unbuckle at speed under a profile of grace 0, a latch that finds BUCKLED, an unbuckle that does not find it, and one that does
not come from LATCHED. -/
theorem witness_BuckleStays : let s := buckled { last := some .opened, confirmed := some .latched } { state := .buckled }
    let t : State := { s with tables := { s.tables with profiles := Vector.replicate 4 { grace := 0 } } }
    let u := buckled { last := some .latched, confirmed := none } { state := .buckled }
    let v := buckled { last := some .opened, confirmed := some .latched } { state := .suspended }
    let w := buckled { last := some .opened, confirmed := none } { state := .stage1 }
    (t.ru.buckles[(0 : Pos)].confirmed = some .latched ∧ t.ru.records[(0 : Pos)].state = .buckled ∧ (t.profileOf 0).retrigger = true ∧
      (t.profileOf 0).speedOn ≤ t.speedReading.toNat ∧ (t.profileOf 0).grace = 0) ∧
    (u.ru.buckles[(0 : Pos)].last = some .latched ∧ u.ru.buckles[(0 : Pos)].confirmed ≠ some .latched ∧ u.ru.records[(0 : Pos)].state = .buckled) ∧
    v.ru.records[(0 : Pos)].state ≠ .buckled ∧ w.ru.buckles[(0 : Pos)].confirmed ≠ some .opened ∧
    w.ru.buckles[(0 : Pos)].confirmed ≠ some .latched := by decide

/-- The unbuckle below speed_on. -/
theorem witness_UnbuckleSlowly : let t := buckled { last := some .opened, confirmed := some .latched } { state := .buckled }
    ({ t with vp := { t.vp with staleness := 5, speed := 9 } } : State).speedReading.toNat < (t.profileOf 0).speedOn := by decide

/-- The last tick at which the idle run of 80 still sends the poll, and the last one at which it can still come to 80 in time. -/
theorem witness_PollSend : let p : Poll := { station := 0, kind := .sample, slotStart := 0 }
    let s := polling p { clock := 800, idleRun := 80 }
    let t := polling p { clock := 720, idleRun := 0 }
    s.power = .on ∧ s.lc.pass [] = some s.lc ∧ s.lc.poll = some p ∧ p.phase = .waitIdle ∧ 80 ≤ s.lc.idleRun ∧
    s.lc.clock ≤ p.slotStart + 800 ∧ t.lc.poll = some p ∧ t.lc.clock + (80 - t.lc.idleRun) ≤ p.slotStart + 800 :=
  ⟨rfl, rfl, rfl, rfl, by decide, by decide, rfl, by decide⟩

/-- The first and the last tick of a poll that is being sent, the tick after it, and a poll that is not. -/
theorem witness_Drive : let p : Poll := { station := 0, kind := .identify, slotStart := 0, sequenceSent := some 5, phase := .sending, sentAt := 7 }
    p.phase = .sending ∧ p.sequenceSent = some 5 ∧ 7 = p.sentAt + 40 * (0 : Fin 4).val + 4 * 0 + 0 ∧
    166 = p.sentAt + 40 * (3 : Fin 4).val + 4 * 9 + 3 ∧ p.sentAt + 160 ≤ 167 ∧ sentPoll.phase ≠ .sending ∧ (van .run).lc.poll = none := by decide

/-- Each end of an exchange at its first tick: the wait, the window, the idle run, the limit inside and outside a byte, and a byte for
which the buffer has no room; with a short buffer and with an open reply of six bytes. -/
theorem witness_FailedExchanges :
    let wait : Poll := { station := 0, kind := .sample, slotStart := 0 }
    let open' : Poll := { sentPoll with phase := .listening, byteStart := none, latency := none }
    let between : Poll := { sentPoll with byteStart := none }
    let inside : Poll := { sentPoll with byteStart := some 2950 }
    let a := polling wait { clock := 800, idleRun := 79 }
    let b := polling open' { clock := 561 }
    let c := polling between { clock := 900, idleRun := 120, buffer := [0xB4, 42, 0x15, 9, 0] }
    let d := polling between { clock := 2961, idleRun := 119, candidate := some 2959, buffer := [0xB4, 42, 0x15, 9, 0, 0] }
    let e := polling inside { clock := 2961 }
    let f := polling between { clock := 903, candidate := some 900, buffer := List.replicate 48 0 }
    (a.power = .on ∧ a.lc.pass [] = some a.lc ∧ wait.phase = .waitIdle ∧ wait.slotStart + 800 ≤ a.lc.clock ∧ a.lc.idleRun < 80) ∧
    (b.power = .on ∧ b.lc.pass [] = some b.lc ∧ open'.phase = .listening ∧ b.lc.candidate = none ∧ open'.pollEnd + 401 ≤ b.lc.clock) ∧
    (c.power = .on ∧ c.lc.pass [] = some c.lc ∧ between.phase = .receiving ∧ between.byteStart = none ∧ c.lc.candidate = none ∧
      120 ≤ c.lc.idleRun ∧ c.lc.buffer.length < 6 ∧
      ¬ (d.lc.buffer.length < 6 ∨ (expectedLength d.lc.buffer).isSome = true) ∧ (expectedLength [0xB4, 42, 0x15, 2]).isSome = true) ∧
    (d.power = .on ∧ d.lc.pass [] = some d.lc ∧ between.pollEnd + 2801 ≤ d.lc.clock ∧ d.lc.idleRun < 120 ∧ d.lc.candidate = some 2959 ∧
      d.lc.clock < 2959 + 3) ∧
    (e.power = .on ∧ e.lc.pass [] = some e.lc ∧ inside.byteStart = some 2950 ∧ e.lc.clock ≤ 2950 + 38 ∧ inside.pollEnd + 2801 ≤ e.lc.clock) ∧
    (f.power = .on ∧ f.lc.pass [] = some f.lc ∧ f.lc.candidate = some 900 ∧ 900 + 3 ≤ f.lc.clock ∧ f.lc.buffer.length = 48) := by
  decide +kernel

/-- A candidate that is pending as the window closes. -/
theorem witness_PendingAtTheClose : let p : Poll := { sentPoll with phase := .listening, byteStart := none, latency := none }
    let l : LineController := { clock := 561, candidate := some 560, poll := some p }
    l.poll = some p ∧ p.phase = .listening ∧ l.candidate = some 560 ∧ l.clock ≤ 560 + 2 ∧ p.pollEnd + 401 ≤ 560 + 3 ∧
    [true, true].length = 560 + 3 - l.clock ∧ [true, true].getLast? = some true ∧ [true, false].getLast? ≠ some true := by decide

theorem witness_ExchangeFailed : let s := polling sentPoll {}
    s.sm.nodes[(2 : Station)].state ≠ .active ∧ s.sm.nodes[(0 : Station)].state = .active ∧
    min (s.sm.nodes[(0 : Station)].misses + 1) 15 < s.tables.globals.retryLimit := by decide

theorem witness_PollEnd : let p : Poll := { sentPoll with phase := .sending, byteStart := none }
    let s := polling p { clock := 158 }
    s.power = .on ∧ s.lc.poll = some p ∧ p.phase = .sending ∧ s.lc.clock + [true, false].length = p.sentAt + 160 := by decide

theorem witness_StartBit : let p : Poll := { sentPoll with phase := .listening, byteStart := none, latency := none, windowFresh := true }
    let q : Poll := { sentPoll with byteStart := none }
    let s := polling p { clock := 563, candidate := some 560 }
    let t := polling q { clock := 563, candidate := some 560, buffer := List.replicate 47 0 }
    let u := polling p { clock := 160 }
    s.power = .on ∧ s.lc.pass [] = some s.lc ∧ s.lc.poll = some p ∧ p.phase = .listening ∧ s.lc.candidate = some 560 ∧ 560 + 3 ≤ s.lc.clock ∧
    t.lc.pass [] = some t.lc ∧ t.lc.poll = some q ∧ q.phase = .receiving ∧ q.byteStart = none ∧ t.lc.candidate = some 560 ∧
    t.lc.buffer.length < 48 ∧ u.lc.poll = some p ∧ p.windowFresh = true ∧ u.lc.candidate = none ∧ u.lc.clock = p.pollEnd := by decide +kernel

/-- The last start of a byte whose stop bit still comes in time, from its confirmation on. -/
theorem witness_ReplyBits : let p : Poll := { sentPoll with byteStart := some 2922 }
    let l : LineController := { clock := 2925, poll := some p }
    l.poll = some p ∧ p.phase = .receiving ∧ p.byteStart = some 2922 ∧ l.clock ≤ 2922 + 6 ∧ 2922 + 38 ≤ p.pollEnd + 2800 ∧
    l.clock + (levels 0xB4 ++ [true]).length = 2922 + 39 := by decide

/-- A byte that is stored, one with stop bit 0, and a byte 0 other than SYNC. -/
theorem witness_ReplyBytes : let p : Poll := { sentPoll with byteStart := some 2922, byte := 2 }
    let s := polling p { clock := 2960, buffer := [0xB4, 42, 0x15] }
    let u := polling p { clock := 2960 }
    let l : LineController := { clock := 2961, idleRun := 1, buffer := [0xB4, 42, 0x15], poll := some p }
    (s.power = .on ∧ s.lc.pass ([] ++ [true]) = some l ∧ l.poll = some p ∧ p.phase = .receiving ∧ p.byteStart = some 2922 ∧
      l.clock = 2922 + 39 ∧ 0 < l.idleRun ∧ (l.buffer = [] → p.byte = 0xB4) ∧
      expectedLength (l.buffer ++ [p.byte]) ≠ some (l.buffer.length + 1)) ∧
    s.lc.pass ([] ++ [false]) = some { l with idleRun := 0 } ∧
    u.lc.pass ([] ++ [true]) = some { l with buffer := [] } ∧ p.byte ≠ 0xB4 := by decide +kernel

/-- Stop bits that LC has sampled already, low and high, and one that the command brings. -/
theorem witness_StopBitSampled : let p : Poll := { sentPoll with byteStart := some 2922, byte := 2 }
    let l : LineController := { clock := 2961, buffer := [0xB4, 42, 0x15], poll := some p }
    StopBitSampled (polling p l) [] false l ∧ StopBitSampled (polling p { l with idleRun := 1 }) [] true { l with idleRun := 1 } ∧
    StopBitSampled (polling p { l with clock := 2960 }) [] false l := by
  unfold StopBitSampled
  decide +kernel

/-- The bytes of an IDENTIFY reply of node 42 with two places, echoing sequence 5, without its last byte. -/
def identifyReply : List Byte := [0xB4, 42, 0x25, 2, 0, ((crc16 [42, 0x25, 2, 0]) >>> (8 : Nat)).setWidth 8]

/-- Its last byte. -/
def identifyLast : Byte := (crc16 [42, 0x25, 2, 0]).setWidth 8

/-- A poll of kind IDENTIFY for station 3 whose reply has come with latency `l`. -/
def identifying (l : Nat) : Poll := { sentPoll with kind := .identify, latency := some l }

theorem witness_GoodIdentify : let p : Poll := { identifying 127 with byte := identifyLast }
    let s := polling p { clock := 325, buffer := identifyReply }
    let l : LineController := { clock := 326, idleRun := 1, buffer := identifyReply, poll := some p }
    s.power = .on ∧ s.lc.pass ([] ++ [true]) = some l ∧ l.poll = some p ∧ p.phase = .receiving ∧ p.byteStart = some 287 ∧
    l.clock = 287 + 39 ∧ 0 < l.idleRun ∧ (l.buffer = [] → p.byte = 0xB4) ∧
    expectedLength (l.buffer ++ [p.byte]) = some (l.buffer.length + 1) ∧
    frameOutcome p (l.buffer ++ [p.byte]) = .good 42 2 [] := by decide +kernel

/-- Station 1 absent, with its link lost to node 42 and to another, and ACTIVE as node 42 with two places: a reply of node 42 with two
places, with three, and of node 43. Position 1 stands at place 1 of the station, which one place does not reach. -/
theorem witness_GoodReplies : let at' := fun n : Node => visiting n
    ((at' {}).sm.nodes[(0 : Station)].state = .absent ∧ (at' {}).vp.eventSlot = none ∧ (at' {}).vp.eventQueue = []) ∧
    ((at' { state := .linkLost, nodeId := 42 }).sm.nodes[(0 : Station)].state = .linkLost ∧
      (at' { state := .linkLost, nodeId := 42 }).sm.nodes[(0 : Station)].nodeId = 42) ∧
    ((at' { state := .active, nodeId := 42, places := 2 }).sm.nodes[(0 : Station)].state = .active ∧
      (at' { state := .active, nodeId := 42, places := 2 }).sm.nodes[(0 : Station)].places = 2) ∧
    (2 : Nat) ≠ 3 ∧ (42 : Byte) ≠ 43 ∧ (at' { places := 1 }).routedPlace 0 1 = some 1 ∧ (at' { places := 1 }).routedPlace 0 2 = none ∧
    (at' { places := 1 }).sm.nodes[(0 : Station)].places ≤ (1 : Place).val := by decide +kernel

/-- Node 42, which no entry of the small van names, and a reply with one place: CAL_MISSING and PLACE_MISSING of position 1 follow. -/
theorem witness_events : let s := visiting {}
    (calMissingEvents s 0 42).map (·.kind) = [.calMissing] ∧
    (placeMissingEvents s (s.routedPlace 0) 1).map (fun r => (r.kind, r.subject, r.detail0)) = [(.placeMissing, 1, 1)] ∧
    placeMissingEvents s (s.routedPlace 0) 2 = [] := by decide +kernel

/-- Positions 5 and 0 wait, and 2 is under evaluation: a flush of 0 takes it out of the queue, and one of 2 leaves its flags. -/
theorem test_flushed_queue : let s := van .run
    let busy : Chain := { scheduled := true, underEval := true }
    let s : State := { s with ss := { s.ss with
      chains := ((s.ss.chains.set 0 { scheduled := true }).set 2 busy).set 5 { scheduled := true }, evalQueue := [5, 0] } }
    (s.flush 0 true).ss.evalQueue = [5] ∧ (s.flush 2 true).ss.evalQueue = [5, 0] ∧
    (s.flush 2 true).ss.chains[(2 : Pos)] = { busy with epoch := 1 } ∧ (s.flush 0 true).ss.chains[(0 : Pos)] = { epoch := 1 } := by
  decide +kernel

theorem witness_LowSample : let s := polling { sentPoll with byteStart := none } { clock := 400 }
    (van .run).power = .on ∧ (van .run).lc.poll = none ∧ s.power = .on ∧ (s.lc.pass ([true] ++ [false])).isSome = true := by decide

/-- A tick that begins a candidate after a high sample and as the first low one of a window, one inside a byte, one after a low sample,
and ticks before and at the confirming sample, with a reply awaited and without. -/
theorem witness_Ticks : let open' : Poll := { sentPoll with phase := .listening, byteStart := none, windowFresh := true }
    let high : LineController := { clock := 400, idleRun := 1 }
    let fresh : LineController := { clock := 400, poll := some open' }
    let inside : LineController := { clock := 400, idleRun := 1, poll := some sentPoll }
    let pending := fun n : Nat => ({ clock := n, candidate := some 400, poll := some open' } : LineController)
    (high.candidate = none ∧ 0 < high.idleRun ∧ high.poll = none) ∧ (fresh.idleRun = 0 ∧ fresh.poll = some open' ∧ open'.windowFresh = true) ∧
    (inside.poll = some sentPoll ∧ sentPoll.phase = .receiving ∧ sentPoll.byteStart = some 287) ∧
    ((pending 401).clock < 400 + 2 ∧ 400 + 2 ≤ (pending 402).clock ∧ (pending 402).candidate = some 400 ∧ open'.phase = .listening) := by
  decide

theorem witness_LinkLoss : let p : Poll := { sentPoll with station := 0, phase := .listening, byteStart := none, latency := none }
    let s : State := { polling p { clock := 561 } with
      sm := { (van .run).sm with nodes := (Vector.replicate 8 {}).set 0 { state := .active, nodeId := 42, places := 2, misses := 2 } }
      cl := (van .run).cl.set 0 { committed := .adult, supp := .enable }
      ru := { records := (Vector.replicate 16 {}).set 0 { state := .stage1, timer := 5 } } }
    s.power = .on ∧ s.lc.pass [] = some s.lc ∧ p.pollEnd + 401 ≤ s.lc.clock ∧ s.lc.poll = some p ∧ p.phase = .listening ∧ s.lc.candidate = none ∧ s.sm.nodes[p.station].state = .active ∧
    s.tables.globals.retryLimit ≤ min (s.sm.nodes[p.station].misses + 1) 15 ∧ (s.routedPlace p.station 0).isSome = true ∧
    (s.routedPlace p.station 2).isSome = false ∧ s.cl[(0 : Pos)].committed ≠ .unknown ∧ (s.entry 0).station.isSome = true ∧
    s.ru.records[(0 : Pos)].state = .stage1 ∧ s.vp.eventSlot = none ∧ s.vp.eventQueue = [] := by decide +kernel

/-- Misses of an ACTIVE station below the limit and at it, by an outcome of each kind, and with a mismatch reported and not. -/
theorem witness_Misses : let n : Node := { state := .active, nodeId := 42, places := 2, misses := 1 }
    (visiting n).sm.nodes[(0 : Station)].state = .active ∧ n.hopReported = false ∧
    (visiting { n with hopReported := true }).sm.nodes[(0 : Station)].hopReported = true ∧
    min (n.misses + 1) 15 < (visiting n).tables.globals.retryLimit ∧
    (visiting n).tables.globals.retryLimit ≤ min (({ n with misses := 2 } : Node).misses + 1) 15 ∧
    (∀ node places samples, ReplyOutcome.noReply ≠ .good node places samples) ∧ ReplyOutcome.noReply ≠ .hopMismatch ∧
    ∀ node places samples, ReplyOutcome.hopMismatch ≠ .good node places samples :=
  ⟨by decide, rfl, by decide, by decide, by decide, nofun, nofun, nofun⟩

/-- A store in which position 0's chain holds `n` buckets, position 1's the `m` others, and the free list the rest. -/
def stored (n m : Nat) (busy : Bool) : State :=
  { van .run with ss := { State.reset.ss with
    freeLen := 255 - n - m
    chains := (State.reset.ss.chains.set 0 { len := n, underEval := busy }).set 1 { len := m } } }

theorem witness_Arrival_sound : StoreSound (stored 23 0 false) ∧ StoreSound (stored 24 0 false) ∧ StoreSound (stored 24 0 true) ∧
    StoreSound (stored 0 255 false) := by
  unfold StoreSound BucketsAccounted CapInRange
  decide +kernel

/-- Just below the cap with a free bucket; at the cap, free and under evaluation; and with no free bucket. -/
theorem witness_Arrival_clauses : let len := fun s : State => s.ss.chains[(0 : Pos)].len
    len (stored 23 0 false) ≠ (stored 23 0 false).tables.globals.chainCap ∧ (stored 23 0 false).ss.freeLen ≠ 0 ∧
    len (stored 24 0 false) = (stored 24 0 false).tables.globals.chainCap ∧ (stored 24 0 false).ss.chains[(0 : Pos)].underEval = false ∧
    (stored 24 0 true).ss.chains[(0 : Pos)].underEval = true ∧ (stored 0 255 false).ss.freeLen = 0 ∧
    len (stored 0 255 false) ≠ (stored 0 255 false).tables.globals.chainCap ∧ (stored 24 0 true).cl[(0 : Pos)].quality.sampleLoss = false ∧
    ({ stored 24 0 true with cl := Vector.replicate 16 { quality := { sampleLoss := true } } } : State).cl[(0 : Pos)].quality.sampleLoss = true := by
  decide +kernel

/-- A queue with a stale head before a full position, one of stale entries alone, one with a full head; in RUN, and in HOLD in a
STEP's evaluation phase. -/
theorem witness_EvaluationStart : let s := fun n m : Nat => ({ stored n m false with ss := { (stored n m false).ss with evalQueue := [0, 1] } } : State)
    let h : State := { s 7 8 with mode := .hold, mu := (stepping { count := 4, remaining := 3, inStep := true }).mu }
    (s 7 8).power = .on ∧ (s 7 8).mode = .run ∧ (s 7 8).we = none ∧ (s 7 8).change ≠ .configWaiting true ∧
    (s 7 8).ss.evalQueue = [0] ++ [1] ∧ (∀ q ∈ [(0 : Pos)], (s 7 8).ss.chains[q].len < ((s 7 8).bankInForce q).w) ∧
    ((s 7 8).bankInForce 1).w ≤ (s 7 8).ss.chains[(1 : Pos)].len ∧
    (s 7 7).ss.evalQueue = [0, 1] ++ [] ∧ (∀ q ∈ [(0 : Pos), 1], (s 7 7).ss.chains[q].len < ((s 7 7).bankInForce q).w) ∧
    ((s 8 7).bankInForce 0).w ≤ (s 8 7).ss.chains[(0 : Pos)].len ∧
    h.mode = .hold ∧ h.lc.poll = none ∧ (∃ req, h.mu.service = some { req, work := .stepping { count := 4, remaining := 3, inStep := true, deadlinesTested := false } }) :=
  ⟨rfl, rfl, rfl, nofun, rfl, by decide +kernel, by decide +kernel, rfl, by decide +kernel, by decide +kernel, rfl, rfl, ⟨_, rfl⟩⟩

/-- An evaluation of position 0 that captured epoch `n`. -/
def evaluating (n : Byte) : State :=
  { van .run with we := some { pos := 0, epoch := n, bank := {}, offsets := Vector.replicate 6 0, gains := Vector.replicate 6 64 } }

theorem witness_StaleEvaluation : (evaluating 5).power = .on ∧ ((evaluating 5).we.map Evaluation.pos) = some 0 ∧
    (evaluating 5).change ≠ .resetSettling ∧ (evaluating 5).ss.chains[(0 : Pos)].epoch ≠ 5 := by decide

theorem witness_ValidEvaluation : (evaluating 0).power = .on ∧ ((evaluating 0).we.map Evaluation.pos) = some 0 ∧
    (evaluating 0).change ≠ .resetSettling ∧ (evaluating 0).ss.chains[(0 : Pos)].epoch = 0 ∧ SuppressionFollowsClass (evaluating 0) := by
  unfold SuppressionFollowsClass
  decide

/-- The clean windows of R89 and R90: of the committed class, from UNKNOWN, for the candidate below and at C, for C 1, and another one. -/
theorem witness_CleanWindows :
    afterCleanWindow { committed := .adult, candidate := some .empty, confirm := 2 } .adult 3 = (.adult, none, 0) ∧
    afterCleanWindow { committed := .unknown } .empty 3 = (.empty, none, 0) ∧
    afterCleanWindow { committed := .adult, candidate := some .empty, confirm := 1 } .empty 3 = (.adult, some .empty, 2) ∧
    afterCleanWindow { committed := .adult, candidate := some .empty, confirm := 2 } .empty 3 = (.empty, none, 0) ∧
    afterCleanWindow { committed := .adult } .empty 1 = (.empty, none, 0) ∧
    afterCleanWindow { committed := .adult } .empty 3 = (.adult, some .empty, 1) := by decide

/-- A clean and a disturbed window. -/
theorem witness_ValidEvaluation_windows :
    (windowResult [{}, {}] workedEvaluation).disturbed = false ∧
    (windowResult [{ disturbed := true }, { disturbed := true }] workedEvaluation).disturbed = true := by decide

theorem witness_NetValue : (windowSample 1023 0 35 45 30 60).cells[(0 : Fin 6)] ≤ 1023 ∧
    ({ workedEvaluation with offsets := #v[0, 1023, 50, 45, 30, 60] } : Evaluation).offsets[(0 : Fin 6)] = 0 ∧
    ({ workedEvaluation with offsets := #v[0, 1023, 50, 45, 30, 60] } : Evaluation).offsets[(1 : Fin 6)] = 1023 := by decide

theorem witness_Footprint : ({ workedEvaluation with bank := { cellOn := 0 } } : Evaluation).bank.cellOn = 0 ∧
    ({ workedEvaluation with bank := { cellOn := 1023 } } : Evaluation).bank.cellOn = 1023 ∧
    ∀ c : Fin 6, (windowSample 1023 1023 1023 0 0 0).cells[c] ≤ 1023 := by decide

theorem witness_WindowFigures : [0, 0, 1, 3, 3].length = 5 ∧ 2 ≤ 5 ∧ 5 % 2 = 1 ∧ (∀ l ∈ [0, 0, 1, 3, 3], l ≤ 16383) ∧ 5 ≤ 16 ∧
    (∀ l ∈ [0, 0, 1, 3, 3], l ≤ 3) ∧ (∀ l ∈ [0, 0, 1, 3, 3], 0 ≤ l) ∧ [windowSample 0 0 0 0 0 0] ≠ [] ∧
    16383 < weightedSum (windowSample 1023 1023 1023 1023 1023 1023) { workedEvaluation with gains := Vector.replicate 6 255 } / 64 := by decide

/-- Samples whose cells and calibration lie in range; and a window flagged in half its samples, one over D_max, one with a tag of each
orientation and one with none. -/
theorem witness_WindowVerdicts : let plain : Evaluation := { workedEvaluation with offsets := Vector.replicate 6 0, gains := Vector.replicate 6 64 }
    let x := windowSample 1023 280 410 390 120 100
    (∀ c : Fin 6, x.cells[c] ≤ 1023 ∧ workedEvaluation.gains[c] ≤ 255) ∧
    (∀ c : Fin 6, x.cells[c] ≤ 1023 ∧ plain.offsets[c] = 0 ∧ plain.gains[c] = 64) ∧ sampleLoad x plain = 2323 ∧
    (windowResult [{ x with disturbed := true }, { x with disturbed := true }, x, x] plain).disturbed = true ∧
    (windowResult [{ x with disturbed := true }, x, x, x] plain).disturbed = false ∧
    (windowResult [windowSample 500 0 0 0 0 0, windowSample 99 0 0 0 0 0, x, x] plain).disturbed = true ∧
    (windowResult (tagged [.forward, .forward, .forward, .none]) plain).tag = some .forward ∧
    (windowResult (tagged [.forward, .unreadable, .none, .forward]) plain).tag = some .forward ∧
    (windowResult (tagged [.forward, .unreadable, .forward, .rearward]) plain).tag = some .rearward ∧
    (windowResult (tagged [.forward, .forward, .none, .none]) plain).tag = none := by decide +kernel

/-- A whole reply to the poll of `identifying l`: header bytes NODE, KIND_SEQ and PLACES, a CYCLE byte, and the CRC-16 less `off`. -/
def replyOf (node kindSeq places : Byte) (off : Word) : List Byte :=
  let body := [node, kindSeq, places, 0]
  0xB4 :: (body ++ [((crc16 body - off) >>> (8 : Nat)).setWidth 8, (crc16 body - off).setWidth 8])

/-- A reply that fails each check alone, at the ends of the ranges, and one that fails none, 4 and 5 ticks from the expected latency. -/
theorem witness_Latency : let q := (identifying 132).sequenceSent
    q = some 5 ∧ (identifying 132).latency = some 132 ∧ (identifying 133).latency = some 133 ∧
    crcOk (replyOf 42 0x25 2 1) = false ∧
    ([replyOf 0 0x25 2 0, replyOf 255 0x25 2 0, replyOf 42 0x25 0 0, replyOf 42 0x25 5 0, replyOf 42 0x15 2 0, replyOf 42 0x24 2 0,
      replyOf 1 0x25 1 0, replyOf 254 0x25 4 0].all crcOk) = true ∧
    (frameOutcome (identifying 132) (replyOf 0 0x15 2 1) = .crc ∧ frameOutcome (identifying 132) (replyOf 255 0x15 2 0) = .badNode ∧
      frameOutcome (identifying 132) (replyOf 42 0x15 5 0) = .badNode ∧ frameOutcome (identifying 133) (replyOf 42 0x24 2 0) = .sequence ∧
      frameOutcome (identifying 133) (replyOf 254 0x25 4 0) = .hopMismatch ∧
      frameOutcome (identifying 132) (replyOf 254 0x25 4 0) = .good 254 4 []) ∧
    (visiting { state := .active }).sm.nodes[(0 : Station)].state = .active := by decide +kernel

theorem witness_DueFrames : let vp := (van .run).vp
    let s : State := { van .run with vp := { vp with
      cls := { vp.cls with due := true }, belt := { vp.belt with due := true }, quality := { vp.quality with due := true }
      suppression := { vp.suppression with due := true } } }
    s.power = .on ∧ s.vp.cls.due = true ∧ s.vp.belt.due = true ∧ s.vp.quality.due = true ∧ s.vp.suppression.due = true := by decide

/-- The small van in BUS_OFF for `n` milliseconds. -/
def busOff (n : Nat) : State := { van .run with vp := { (van .run).vp with busOff := true, busOffCount := n, failures := 32 } }

/-- An event record. -/
def someEvent : EventRecord := { kind := .linkLost, subject := 4, detail0 := 0, detail1 := 0, stamp := 7 }

/-- A port with nothing waiting, one with a record in the slot, and one whose queue is full. -/
theorem witness_EventTaken : let v := (van .run).vp
    let w : VehiclePort := { v with eventSlot := some someEvent, eventQueue := [someEvent] }
    let u : VehiclePort := { v with eventSlot := some someEvent, eventQueue := List.replicate 15 someEvent ++ [someEvent] }
    v.eventSlot = none ∧ v.eventQueue = [] ∧ w.eventSlot ≠ none ∧ w.eventQueue.length < 16 ∧ u.eventSlot ≠ none ∧
    16 ≤ u.eventQueue.length := by decide

theorem witness_BusOff : (busOff 200).power = .on ∧ (busOff 200).vp.busOff = true ∧ (busOff 200).vp.busOffCount = 200 ∧
    (busOff 199).vp.busOffCount < 200 ∧ (busOff 200).vp.eventSlot = none ∧ (busOff 200).vp.eventQueue = [] := by decide

theorem witness_SpeedChanges : let f : CanFrame := { ident := 0x210, data := [10] }
    let s := reminding 5 { state := .pending }
    let t : State := { s with vp := { s.vp with staleDue := true, staleness := 1000, speed := 3 } }
    s.power = .on ∧ s.vp.busOff = false ∧ s.vp.staleDue = false ∧ f.ident = s.tables.speedInput.ident ∧ f.ident ≠ s.vp.base ∧
    f.ident ≠ s.vp.base + 1 ∧ f.data[s.tables.speedInput.byteIndex.val]? = some 10 ∧ s.speedReading ≠ 10 ∧
    (s.profileOf 0).speedOn ≤ (10 : Byte).toNat ∧ t.power = .on ∧ t.vp.staleDue = true ∧ t.vp.staleness = 1000 := by decide

/-- The small van with only these slots pending. -/
def slots (supp cls belt quality : Bool) (response : Option Frame) (event : Option EventRecord) : State :=
  let vp := (van .run).vp
  { van .run with vp := { vp with
    suppression := { vp.suppression with pending := supp }, cls := { vp.cls with pending := cls }
    belt := { vp.belt with pending := belt }, quality := { vp.quality with pending := quality }, response, eventSlot := event } }

theorem witness_TransmitStart (supp cls belt quality : Bool) (response : Option Frame) (event : Option EventRecord) :
    let s := slots supp cls belt quality response event
    s.power = .on ∧ s.vp.busOff = false ∧ s.vp.wire = none ∧ s.vp.suppression.pending = supp ∧ s.vp.cls.pending = cls ∧
    s.vp.belt.pending = belt ∧ s.vp.quality.pending = quality ∧ s.vp.response = response ∧ s.vp.eventSlot = event :=
  ⟨rfl, rfl, rfl, rfl, rfl, rfl, rfl, rfl, rfl⟩

theorem witness_Attempts : let a : Attempt := { payload := .event, ident := 0x647, data := Vector.replicate 8 0, resetSince := true }
    let s : State := { van .run with vp := { (van .run).vp with wire := some a, failures := 30 } }
    let t : State := { van .run with vp := { (van .run).vp with wire := some a, failures := 31 } }
    s.power = .on ∧ s.vp.wire = some a ∧ s.vp.failures < 31 ∧ t.vp.wire = some a ∧ 31 ≤ t.vp.failures := by decide

theorem witness_ServingUnit : let s := served (van .run) (.result { status := .ok })
    let f := service 1 7 0 0 0
    s.power = .on ∧ s.vp.busOff = false ∧ s.mu.service.isSome = true ∧ (f.under .readWord).wf = true ∧ f.ident = s.vp.base + 1 ∧
    (operational 1 7 0 0 0).ident = s.vp.base ∧ (busOff 5).power = .on ∧ (busOff 5).vp.busOff = true ∧
    ({ f with ident := 0x642 } : CanFrame).ident ≠ s.vp.base ∧ ({ f with ident := 0x642 } : CanFrame).ident ≠ s.vp.base + 1 ∧
    f.ident ≠ s.tables.speedInput.ident ∧ f.ident ≠ s.tables.powerInput.ident ∧
    (Instr.malformedRequest 0x640 []).wf = true := by decide

/-- An idle MU, and the requests of the seven kinds. -/
theorem witness_serves (m : Mode) : (van m).serves := ⟨rfl, rfl, rfl⟩

theorem witness_ofKind (level : Level) (id entry word : Byte) (value mask : Word) :
    ∀ k ∈ [1, 2, 3, 4, 5, 6, 7], (record level k id entry word value mask).ofKind k := by
  simp only [List.forall_mem_cons]
  refine ⟨?_, ?_, ?_, ?_, ?_, ?_, ?_, fun _ h => absurd h List.not_mem_nil⟩ <;>
    exact ⟨by simp only [record]; decide, rfl, by simp only [record]; decide⟩

theorem witness_Malformed : ([] : List Byte).length ≠ 8 ∧ (List.headD ([0x0F, 0, 0, 0, 0, 0, 0, 0] : List Byte) 0).toNat / 16 = 0 ∧
    8 ≤ (List.headD ([0x80, 0, 0, 0, 0, 0, 0, 0] : List Byte) 0).toNat / 16 ∧
    ({ ident := 0x640, data := [] } : CanFrame).ident = (van .run).vp.base ∧
    ({ ident := 0x641, data := [] } : CanFrame).ident = (van .run).vp.base + 1 ∧ (van .run).vp.busOff = false := by decide

/-- Items at the ends of the tables' shapes, and the first entries and words beyond them. -/
theorem witness_addresses : address 2 15 48 = some (.calibration 15 48) ∧ mayTouch .service (.calibration 15 48) = true ∧
    mayTouch .operational (.calibration 15 48) = false ∧ address 11 15 11 = some (.context 15 11) ∧ address 1 16 0 = none ∧
    address 2 0 49 = none ∧ address 0 0 0 = none ∧ address 12 0 0 = none ∧ mayTouch .operational (.position 0 3) = false := by decide +kernel

theorem witness_ReadWord_absent : ∀ a, address 0 0 0 = some a → mayTouch .operational a = false := by
  intro a h
  rw [show address 0 0 0 = none from rfl] at h
  cases h

/-- A write under each of the five rows that passes every check. -/
theorem witness_AcceptedWrite :
    (address 7 0 10 = some (.globals 10) ∧ (Address.globals 10).isView = false ∧ (Address.globals 10).writableIn (van .config).mode = true ∧
      inRange (Address.globals 10).layout 64 = true ∧ (van .config).tables.conflict (.globals 10) 64 = none) ∧
    (address 1 2 0 = some (.position 2 0) ∧ (Address.position 2 0).writableIn (van .config).mode = true ∧
      inRange (Address.position 2 0).layout 0x21 = true ∧ (van .config).tables.conflict (.position 2 0) 0x21 = none) ∧
    (address 1 0 3 = some (.position 0 3) ∧ mayTouch .service (.position 0 3) = true ∧ inRange (Address.position 0 3).layout 1 = true ∧
      (van .config).tables.conflict (.position 0 3) 1 = none) ∧
    (address 9 6 0 = some (.override 6 0) ∧ (Address.override 6 0).writableIn (van .hold).mode = true ∧ inRange (Address.override 6 0).layout 1 = true) ∧
    (address 9 6 1 = some (.override 6 1) ∧ (Address.override 6 1).writableIn (van .run).mode = true ∧ inRange (Address.override 6 1).layout 1 = true) := by
  decide +kernel

/-- Writes of a station that unfit a position, an airbag-relevant one among them, change its place, fit one, and leave one unfitted, and
a write of a flag: each passes every check in CONFIG, where the reminders are INACTIVE. -/
theorem witness_FittingWrites : let s := van .config
    let passes := fun (p : Pos) (w : Fin 4) (v : Word) => inRange (Address.position p w).layout v && (s.tables.conflict (.position p w) v).isNone
    passes 0 0 0 = true ∧ passes 1 0 0 = true ∧ passes 0 0 0x28 = true ∧ passes 15 0 0x31 = true ∧ passes 15 0 0x30 = true ∧
    passes 1 3 0 = true ∧ passes 15 3 1 = true ∧ (s.entry 0).station.isSome = true ∧ (s.entry 1).airbag = true ∧
    (s.entry 15).station = none ∧ s.ru.records[(0 : Pos)].state = .inactive ∧ s.ru.records[(15 : Pos)].state = .inactive := by
  decide +kernel

/-- R98 at position 1 of the small van: the station's flags are cleared, its class and suppression reach OU and VP. -/
theorem test_unfitting : let s := van .config
    let s : State := { s with cl := s.cl.set 1 { s.cl[1] with quality := { rough := true, defaultCal := true, linkDown := true } } }
    let t := after ((service 2 1 1 0 0).under .writePositionStation) s
    t.cl[(1 : Pos)] = { committed := .notConfigured, supp := .suppress, quality := { rough := true } } ∧
    t.vp.quality.content[(1 : Pos)] = { rough := true } ∧ t.ou.suppA = some .suppress ∧
    t.vp.suppression.content = { a := some { pos := 1, state := .suppress, cls := .notConfigured }, b := none } := by decide +kernel

/-- R157 at the ends of some ranges, in the terms of the statement, and R158 with a value in range. -/
theorem witness_ranges : (Address.position 0 0).Takes 0x38 ∧ ¬ (Address.position 0 0).Takes 0x39 ∧ (Address.bank .a 0).Takes 16 ∧
    ¬ (Address.bank .a 0).Takes 1 ∧ (Address.globals 3).Takes 8 ∧ ¬ (Address.globals 3).Takes 7 ∧
    smallVan.ConflictsWith (.position 1 0) 0x01 0 ∧ ¬ (∃ e, smallVan.ConflictsWith (.position 0 0) 0x01 e) := by
  refine ⟨⟨8, 3, by decide⟩, ?_, ⟨(2, 16), by decide⟩, ?_, ⟨(8, 64), by decide⟩, ?_,
    ⟨⟨by decide, by decide +kernel, by decide +kernel⟩, by decide⟩, ?_⟩
  · rintro ⟨st, pl, h⟩
    omega
  · rintro ⟨r, h, l, -⟩
    cases Option.some.inj (h : some (2, 16) = some r)
    exact absurd l (by decide)
  · rintro ⟨r, h, l, -⟩
    cases Option.some.inj (h : some (8, 64) = some r)
    exact absurd l (by decide)
  · rintro ⟨e, ⟨h, i, j⟩, -⟩
    revert e
    decide +kernel

/-- The frames of those writes, and of the refused ones, stand under their rows. -/
theorem witness_WriteRows : ((service 2 7 0 10 64).under .writeWord).wf = true ∧ ((service 2 1 2 0 0x21).under .writePositionStation).wf = true ∧
    ((service 2 1 0 3 1).under .writeAirbagRelevant).wf = true ∧ ((service 2 9 6 0 1).under .writeOverrideEnable).wf = true ∧
    ((service 2 9 6 1 1).under .writeOverrideLatched).wf = true ∧ ((service 2 10 7 5 0).under .writeWord).wf = true ∧
    ((operational 2 3 0 8 2).under .writeWord).wf = true := by decide

/-- Writes that fail at each check: a view, a mode, a range, a conflict. -/
theorem witness_RefusedWrite :
    (address 10 7 5 = some (.node 7 5) ∧ (Address.node 7 5).isView = true) ∧
    (address 3 0 8 = some (.bank .a 8) ∧ (Address.bank .a 8).isView = false ∧ mayTouch .operational (.bank .a 8) = true ∧
      (Address.bank .a 8).writableIn (van .run).mode = false) ∧
    ((Address.bank .a 0).writableIn (van .config).mode = true ∧ inRange (Address.bank .a 0).layout 17 = false) ∧
    (inRange (Address.position 1 0).layout 1 = true ∧ (van .config).tables.conflict (.position 1 0) 1 = some 0) := by decide +kernel

/-- A masked write of word 0 that takes both positions of the van out of fitting, and masked writes of the other words. -/
theorem witness_MaskedFittings : let r := record .service 3 1 0 0 0 3
    let masked := (List.finRange 16).filter fun p => r.mask.getLsbD p.val
    masked = [0, 1] ∧ r.word.toNat = (0 : Fin 4).val ∧ inRange (positionLayout 0) r.value = true ∧
    (van .config).tables.maskedConflict 0 r.value masked = none ∧
    (van .config).tables.maskedConflict 3 1 masked = none ∧ (van .config).tables.maskedConflict 2 15 masked = none ∧
    (van .config).ru.records[(0 : Pos)].state = .inactive ∧ (van .config).ru.records[(1 : Pos)].state = .inactive ∧
    (van .config).cl[(1 : Pos)].committed ≠ .notConfigured ∧ ((van .config).entry 1).airbag = true := by decide +kernel

theorem witness_MaskedWrite : let r := record .service 3 1 0 1 0x0100 3
    let q := record .service 3 1 0 0 0x0001 0x0C
    r.id = 1 ∧ r.word.toNat = (1 : Fin 4).val ∧ (van .config).mode = .config ∧ r.mask ≠ 0 ∧ inRange (positionLayout 1) r.value = true ∧
    (van .config).tables.maskedConflict 1 r.value (maskedPositions r.mask) = none ∧ q.word.toNat = (0 : Fin 4).val ∧ q.mask ≠ 0 ∧
    inRange (positionLayout 0) q.value = true ∧ (van .config).tables.maskedConflict 0 q.value (maskedPositions q.mask) = some (2, 0) := by
  decide +kernel

/-- Masked writes that fail at each check: another table, a word above 3, word 3 at the operational level, a mask of 0, and a value out
of range whose lowest masked position is 2. -/
theorem witness_MaskedRefusals : let q := record .service 3 1 0 0 0x0100 0x0C
    (record .service 3 2 0 1 0 1).id ≠ 1 ∧ 4 ≤ (record .service 3 1 0 4 0 1).word.toNat ∧
    ((record .operational 3 1 0 3 1 1).word.toNat = (3 : Fin 4).val ∧ (record .operational 3 1 0 3 1 1).level = .operational) ∧
    (van .run).mode ≠ .config ∧ (record .service 3 1 0 1 0 0).mask = 0 ∧
    (inRange (positionLayout 0) q.value = false ∧ q.mask.getLsbD (2 : Pos).val = true ∧
      ∀ p < (2 : Pos), q.mask.getLsbD p.val = false) := by decide

theorem witness_OperationalLevel : (record .operational 1 2 0 0 0).level = .operational ∧ (record .operational 1 2 0 0 0).id = 2 ∧
    (record .operational 3 1 0 3 0).id = 1 ∧ (record .operational 3 1 0 3 0).word = 3 ∧ (record .operational 4 0 0 0 0).id = 0 ∧
    ((operational 1 2 0 0 0).under .readWord).wf = true ∧ ((operational 2 2 0 0 0).under .writeWord).wf = true ∧
    ((operational 2 1 0 3 1).under .writeAirbagRelevant).wf = true ∧ ((operational 3 1 0 3 1 1).under .writeMasked).wf = true ∧
    ((operational 4 0 0 0 0).under .setModeConfig).wf = true ∧ ((operational 7 0 0 0 0).under .resetRuntime).wf = true := by decide

theorem witness_SetModeRun : (record .service 4 1 0 0 0).id = 1 ∧ (van .config).mode ≠ .run ∧ (van .hold).mode ≠ .run ∧ (van .run).mode = .run ∧
    (van .config).tables.flaw = none ∧ State.reset.tables.flaw = some { table := 1, entry := 0xFF, word := 0 } ∧
    3 ≤ (record .service 4 3 0 0 0).id.toNat ∧ (van .hold).vp.eventSlot = none ∧ (van .hold).vp.eventQueue = [] := by decide +kernel

theorem witness_SetModeRun_tables : PlacesDistinct (van .config).tables ∧ NodesDistinct (van .config).tables := by
  unfold PlacesDistinct NodesDistinct
  decide +kernel

/-- A return from HOLD with an escalating reminder, and the tables that fail each check of R170 in turn. -/
theorem witness_SetModeRun_hold : let s : State := { reminding 5 { state := .stage1 } with mode := .hold, cl := (van .run).cl.set 0 { committed := .adult, supp := .enable } }
    s.mode ≠ .run ∧ s.tables.flaw = none ∧ (s.entry 0).station.isSome = true ∧ s.cl[(0 : Pos)].committed ≠ .unknown ∧
    s.ru.records[(0 : Pos)].state = .stage1 := by decide +kernel

theorem witness_FirstFlaw :
    ({ smallVan with globals := { scheduleLength := 65 } } : Tables).flaw = some { table := 7, entry := 0, word := 10 } ∧
    ({ smallVan with schedule := Vector.replicate 64 none } : Tables).flaw = some { table := 1, entry := 0, word := 0 } ∧
    ({ smallVan with positions := smallVan.positions.set 5 { airbag := true } } : Tables).flaw = some { table := 1, entry := 5, word := 0 } ∧
    ({ smallVan with bankA := { tObj := 1100 } } : Tables).flaw = some { table := 3, entry := 0, word := 5 } ∧
    ({ smallVan with bankA := { h := 9 } } : Tables).flaw = some { table := 3, entry := 0, word := 1 } ∧
    ({ smallVan with bankA := { w := 16 }, globals := { chainCap := 15 } } : Tables).flaw = some { table := 3, entry := 0, word := 0 } ∧
    ({ smallVan with positions := smallVan.positions.map fun e => { e with bank := .b }, globals := { bankBEnable := true }, bankA := { h := 9 }, bankB := { h := 9 } } : Tables).flaw =
      some { table := 4, entry := 0, word := 1 } := by decide +kernel

theorem witness_SetModeHold : let req := record .service 4 2 0 0 0
    let s : State := { (van .hold).serving req .changing with change := .holdSettling }
    let t : State := { s with lc := { poll := some sentPoll } }
    req.id = 2 ∧ (van .run).mode = .run ∧ (van .run).lc.poll = none ∧ (van .run).we = none ∧ (van .run).vp.eventSlot = none ∧
    (van .run).vp.eventQueue = [] ∧ (polling sentPoll {}).lc.poll ≠ none ∧ s.power = .on ∧ s.change = .holdSettling ∧ s.lc.poll = none ∧ s.we = none ∧
    s.mu.service = some { req, work := .changing } ∧ t.lc.poll ≠ none :=
  ⟨rfl, rfl, rfl, rfl, rfl, rfl, nofun, rfl, rfl, rfl, rfl, rfl, nofun⟩

/-- The small van standing still, with nothing in flight, with a poll, and in CONFIG_WAITING with a full window waiting. -/
theorem witness_SetModeConfig : let req := record .service 4 0 0 0 0
    let standing : State := { van .run with vp := { (van .run).vp with staleness := 999 } }
    let busy : State := { standing with lc := { poll := some sentPoll } }
    (van .run).speedReading ≠ 0 ∧ standing.speedReading = 0 ∧ standing.mode ≠ .config ∧ standing.lc.poll = none ∧ standing.we = none ∧
    busy.speedReading = 0 ∧ busy.lc.poll ≠ none ∧ req.level = .service ∧ req.id = 0 ∧ (van .config).mode = .config :=
  ⟨by decide, by decide, nofun, rfl, rfl, by decide, nofun, rfl, rfl, rfl⟩

theorem witness_ConfigEntry : let req := record .service 4 0 0 0 0
    let s := fun (due : Bool) (n : Nat) =>
      ({ (stored n 0 false).serving req .changing with change := .configWaiting due, ss := { (stored n 0 false).ss with evalQueue := [0] } } : State)
    (s true 8).power = .on ∧ (s true 8).change = .configWaiting true ∧ (s true 8).mu.service = some { req, work := .changing } ∧
    (s true 8).lc.poll = none ∧ (s true 8).we = none ∧
    (∀ q ∈ (s false 7).ss.evalQueue, (s false 7).ss.chains[q].len < ((s false 7).bankInForce q).w) ∧ (s false 8).mode = .run ∧
    (∃ q ∈ (s false 8).ss.evalQueue, ((s false 8).bankInForce q).w ≤ (s false 8).ss.chains[q].len) ∧
    ({ s false 8 with we := (evaluating 0).we } : State).we ≠ none := by
  refine ⟨rfl, rfl, rfl, rfl, rfl, ?_, rfl, ?_, nofun⟩ <;> decide +kernel

theorem witness_Step : (van .hold).mode = .hold ∧ 1 ≤ (record .operational 5 0 16 0 0).entry.toNat ∧ (record .operational 5 0 16 0 0).entry.toNat ≤ 16 ∧
    16 < (record .operational 5 0 17 0 0).entry.toNat ∧ (van .run).mode ≠ .hold := by decide

theorem witness_Reidentify : let full : State := { van .run with ps := { onDemand := [0, 1, 2, 3] } }
    full.power = .on ∧ full.vp.busOff = false ∧ full.mu.service = none ∧ full.mode ≠ .config ∧ (record .operational 6 0 8 0 0).entry.toNat = (7 : Station).val + 1 ∧
    (7 : Station) ∉ full.ps.onDemand ∧ 4 ≤ full.ps.onDemand.length ∧ (3 : Station) ∈ full.ps.onDemand ∧
    ({ van .run with ps := { onDemand := [0, 1, 2] } } : State).ps.onDemand.length < 4 ∧ 8 < (record .operational 6 0 9 0 0).entry.toNat ∧
    (van .config).mode = .config := by decide

theorem witness_ResetRuntime : let req := record .service 7 0 0 0 0
    let standing : State := { van .run with vp := { (van .run).vp with staleness := 999 } }
    let busy : State := { standing with we := (evaluating 0).we }
    let settling : State := { busy.serving req .changing with change := .resetSettling }
    standing.serves ∧ standing.speedReading = 0 ∧ standing.we = none ∧ (van .run).speedReading ≠ 0 ∧ busy.serves ∧ busy.speedReading = 0 ∧
    busy.we ≠ none ∧ settling.power = .on ∧ settling.we.isSome = true ∧ settling.change = .resetSettling ∧
    settling.mu.service = some { req, work := .changing } :=
  ⟨⟨rfl, rfl, rfl⟩, by decide, rfl, by decide, ⟨rfl, rfl, rfl⟩, by decide, nofun, rfl, rfl, rfl, rfl⟩

theorem witness_HandOver : let s := served (van .hold) (.result { status := .ok, data := 3 })
    s.power = .on ∧ (∃ req, s.mu.service = some { req, work := .result { status := .ok, data := 3 } }) ∧ s.vp.response = none ∧
    ({ s with vp := { s.vp with response := some (Vector.replicate 8 0) } } : State).vp.response.isSome = true :=
  ⟨rfl, ⟨_, rfl⟩, rfl, rfl⟩

/-- The small van in RUN as its blocks would have left it, with a command waiting. -/
def soundVan : State :=
  { van .run with
    ou := { suppA := some .indeterminate }
    vp := { (van .run).vp with
      cls := { content := ((Vector.replicate 16 .notConfigured).set 0 .unknown).set 1 .unknown }
      suppression := { content := { a := some { pos := 1, state := .indeterminate, cls := .unknown } } } }
    pending := [.cabinTimeAdvance] }

theorem witness_soundVan_store : StoreSound soundVan ∧ TablesSound soundVan := by
  unfold StoreSound BucketsAccounted CapInRange TablesSound PlacesDistinct NodesDistinct
  decide +kernel

theorem witness_soundVan_reports : SuppressionFollowsClass soundVan ∧ SuppressionReported soundVan ∧ ReportsFollow soundVan ∧
    CopiesFollow soundVan := by
  unfold SuppressionFollowsClass SuppressionReported ReportsFollow CopiesFollow
  decide +kernel

theorem witness_soundVan_outputs : GroupsFollow soundVan ∧ RemindersClosed soundVan := by
  unfold GroupsFollow RemindersClosed
  decide +kernel

/-- Its store, right after reset: every bucket on the free list, in order. -/
theorem witness_soundVan_links : StoreLinked soundVan := by
  have hf : soundVan.ss.freeBuckets = (List.finRange 256).drop 1 := by decide +kernel
  have hc : ∀ p : Pos, soundVan.ss.chainBuckets p = [] := by decide +kernel
  have ha : allPos.flatMap soundVan.ss.chainBuckets = [] := List.flatMap_eq_nil_iff.mpr fun p _ => hc p
  refine ⟨⟨by rw [hf, ha, List.append_nil], ?_, by decide, fun p => ⟨by simp [hc], ?_⟩⟩, ?_⟩
  · rw [hf]
    decide +kernel
  · revert p
    decide +kernel
  · unfold ChainsCapped
    decide +kernel

/-- The lines by mode, with an override on and off. -/
theorem witness_Lines : (van .run).mode = .run ∧ (van .hold).mode ≠ .run ∧ (van .config).mode ≠ .run ∧ (van .run).power = .on ∧
    (5 : Fin 7).val = (5 : Fin 6).val := by decide

theorem witness_soundVan_queues : OnDemandSound soundVan ∧ EventsSound soundVan ∧ PortSound soundVan ∧ ChangeServed soundVan :=
  ⟨by unfold OnDemandSound; decide, by unfold EventsSound; decide, by unfold PortSound; decide, fun h => absurd rfl h⟩

theorem witness_soundVan_evaluations : EvaluationQueueSound soundVan := by
  unfold EvaluationQueueSound
  decide +kernel

theorem witness_soundVan_steps : ∃ t, Sys2Proof.Machine.step soundVan = .next t := ⟨_, rfl⟩

theorem witness_reminders_sound : RemindersClosed (reminding 5 { state := .stage1, timer := 3 }) ∧ RecordsSound (reminding 5 { state := .stage1, timer := 3 }) := by
  constructor
  · unfold RemindersClosed
    decide +kernel
  · intro p
    fin_cases p <;> simp [RecordSound, reminding]

end Sys2Proof.Machine.Tests
end

section
/-! The Seat Line: what its samples, its events and the ends of an exchange do. -/

namespace Sys2Proof.Machine

/-! ## Runs of samples -/

/-- Whether or not an event is due, samples are counted and leave the buffer alone. -/
@[simp] theorem LineController.foldl_tick_counts (line : Samples) (l : LineController) :
    (line.foldl LineController.tick l).clock = l.clock + line.length ∧
    (line.foldl LineController.tick l).buffer = l.buffer := by
  induction line generalizing l with
  | nil => simp
  | cons b rest ih =>
    obtain ⟨hclock, hbuffer⟩ := ih (l.tick b)
    simp only [List.foldl_cons, hclock, hbuffer, List.length_cons]
    exact ⟨by simp; omega, by simp⟩

/-- `q` is the poll `p` after some samples of the line: LC's window mark and data byte are all that may differ. -/
def Poll.SampledTo (p q : Poll) : Prop := q = { p with windowFresh := q.windowFresh, byte := q.byte }

theorem Poll.SampledTo.refl (p : Poll) : p.SampledTo p := rfl

theorem Poll.SampledTo.trans {p q r : Poll} (hpq : p.SampledTo q) (hqr : q.SampledTo r) : p.SampledTo r := by
  unfold Poll.SampledTo at *
  rw [hqr, hpq]

theorem Poll.sampledTo_sampled (p : Poll) (n : Nat) (b : Bool) : p.SampledTo (p.sampled n b) := rfl

/-- What a poll keeps while the line is sampled. -/
theorem Poll.SampledTo.keeps {p q : Poll} (h : p.SampledTo q) :
    q.station = p.station ∧ q.kind = p.kind ∧ q.slotStart = p.slotStart ∧ q.phase = p.phase ∧ q.sentAt = p.sentAt ∧
    q.pollEnd = p.pollEnd ∧ q.byteStart = p.byteStart := by
  rw [h]
  simp

/-- A poll in flight stays in flight while the line is sampled. -/
theorem LineController.foldl_tick_poll (line : Samples) {l : LineController} {p : Poll} (hp : l.poll = some p) :
    ∃ q, (line.foldl LineController.tick l).poll = some q ∧ p.SampledTo q := by
  induction line generalizing l p with
  | nil => exact ⟨p, hp, .refl p⟩
  | cons b rest ih =>
    have hstep : (l.tick b).poll = some (p.sampled l.clock b) := by simp [hp]
    obtain ⟨q, hq, hpq⟩ := ih hstep
    exact ⟨q, hq, (p.sampledTo_sampled l.clock b).trans hpq⟩

/-- A poll that is not in flight is not put in flight by samples. -/
theorem LineController.foldl_tick_idle (line : Samples) {l : LineController} (hp : l.poll = none) :
    (line.foldl LineController.tick l).poll = none := by
  induction line generalizing l with
  | nil => exact hp
  | cons b rest ih => exact ih (by simp [hp])

/-- High samples lengthen the idle run. -/
theorem LineController.foldl_tick_highs (n : Nat) (l : LineController) :
    ((List.replicate n true).foldl LineController.tick l).idleRun = l.idleRun + n := by
  induction n generalizing l with
  | zero => rfl
  | succ n ih =>
    simp only [List.replicate_succ, List.foldl_cons, ih]
    simp
    omega

/-- The idle run is positive exactly after a high sample. -/
theorem LineController.idleRun_pos_foldl_tick (l : LineController) {line : Samples} (h : line ≠ []) :
    0 < (line.foldl LineController.tick l).idleRun ↔ line.getLast? = some true := by
  obtain ⟨init, b, rfl⟩ : ∃ init b, line = init ++ [b] := ⟨_, _, (List.dropLast_append_getLast h).symm⟩
  cases b <;> simp [List.foldl_append]

/-- High samples in an open window that begin no candidate leave the window as fresh as it was. -/
theorem LineController.foldl_tick_highs_window (n : Nat) {l : LineController} {p : Poll} (hp : l.poll = some p)
    (hc : l.candidate = none) :
    ((List.replicate n true).foldl LineController.tick l).candidate = none ∧
    ∃ q, ((List.replicate n true).foldl LineController.tick l).poll = some q ∧ q = { p with byte := q.byte } := by
  induction n generalizing l p with
  | zero => exact ⟨hc, p, hp, rfl⟩
  | succ n ih =>
    have hstep : (l.tick true).poll = some (p.sampled l.clock true) := by simp [hp]
    have hcand : (l.tick true).candidate = none := by simp [LineController.candidateAfter, hc]
    obtain ⟨hnone, q, hq, hpq⟩ := ih hstep hcand
    refine ⟨hnone, q, hq, ?_⟩
    rw [hpq]
    simp [Poll.sampled]

/-- Samples pass when no event falls due before the last of them is taken. -/
theorem LineController.pass_eq_foldl {line : Samples} {l : LineController}
    (h : ∀ k < line.length, ((line.take k).foldl LineController.tick l).event = none) :
    l.pass line = some (line.foldl LineController.tick l) := by
  induction line generalizing l with
  | nil => rfl
  | cons b rest ih =>
    have hnow : l.event = none := h 0 (by simp)
    rw [LineController.pass_cons hnow]
    exact ih fun k hk => h (k + 1) (by simpa using hk)

/-- Where samples pass, LC stands where they take it. -/
theorem LineController.pass_foldl {line : Samples} {l m : LineController} (h : l.pass line = some m) :
    m = line.foldl LineController.tick l := by
  induction line generalizing l with
  | nil => cases h; rfl
  | cons b rest ih =>
    unfold LineController.pass at h
    split at h
    · cases h
    · exact ih h

/-- Samples pass in parts. -/
theorem LineController.pass_append (xs ys : Samples) (l : LineController) :
    l.pass (xs ++ ys) = (l.pass xs).bind fun m => m.pass ys := by
  induction xs generalizing l with
  | nil => rfl
  | cons b rest ih =>
    simp only [List.cons_append, LineController.pass]
    split
    · rfl
    · exact ih _

/-! ## Candidate start bits (R18) -/

/-- Outside a byte, a low sample after a high one, or the first of a window, begins a candidate. -/
theorem LineController.candidateAfter_begins {l : LineController} (hc : l.candidate = none) (hb : l.inByte = false)
    (hlow : 0 < l.idleRun ∨ l.windowFresh = true) : l.candidateAfter false = some l.clock := by
  simp [LineController.candidateAfter, hc, hb, hlow]

/-- No candidate begins with a high sample, inside a byte, or with a low sample that follows a low one outside a fresh window. -/
theorem LineController.candidateAfter_none {l : LineController} {b : Bool} (hc : l.candidate = none)
    (h : b = true ∨ l.inByte = true ∨ l.idleRun = 0 ∧ l.windowFresh = false) : l.candidateAfter b = none := by
  rcases h with hb | hb | ⟨hidle, hfresh⟩
  · simp [LineController.candidateAfter, hc, hb]
  · simp [LineController.candidateAfter, hc, hb]
  · simp [LineController.candidateAfter, hc, hidle, hfresh]

/-- A candidate stands until the sample two ticks after its first low one. -/
theorem LineController.candidateAfter_unsettled {l : LineController} {b : Bool} {c : Nat} (hc : l.candidate = some c)
    (hclock : l.clock < c + 2) : l.candidateAfter b = some c := by
  simp [LineController.candidateAfter, hc, hclock]

/-- That sample rejects it when high, and confirms it when low where a reply is awaited or received. -/
theorem LineController.candidateAfter_settled {l : LineController} (b : Bool) {c : Nat} (hc : l.candidate = some c)
    (hclock : c + 2 ≤ l.clock) : l.candidateAfter b = if b || !l.watching then none else some c := by
  simp [LineController.candidateAfter, hc, Nat.not_lt.mpr hclock]

/-! ## The events of an exchange, phase by phase -/

theorem LineController.event_send {l : LineController} {p : Poll} (hp : l.poll = some p) (hph : p.phase = .waitIdle)
    (hidle : 80 ≤ l.idleRun) (hclock : l.clock ≤ p.slotStart + 800) : l.event = some .send := by
  simp [LineController.event, hp, hph, idleToSend, busyLimit, hidle, hclock]

theorem LineController.event_waiting {l : LineController} {p : Poll} (hp : l.poll = some p) (hph : p.phase = .waitIdle)
    (hidle : l.idleRun < 80) (hclock : l.clock < p.slotStart + 800) : l.event = none := by
  simp [LineController.event, hp, hph, idleToSend, busyLimit, Nat.not_le.mpr hidle, Nat.not_le.mpr hclock]

theorem LineController.event_sent {l : LineController} {p : Poll} (hp : l.poll = some p) (hph : p.phase = .sending)
    (hclock : p.sentAt + 160 ≤ l.clock) : l.event = some .sent := by
  simp [LineController.event, hp, hph, pollTicks, hclock]

theorem LineController.event_sending {l : LineController} {p : Poll} (hp : l.poll = some p) (hph : p.phase = .sending)
    (hclock : l.clock < p.sentAt + 160) : l.event = none := by
  simp [LineController.event, hp, hph, pollTicks, Nat.not_le.mpr hclock]

theorem LineController.confirmed_of_candidate {l : LineController} {c : Nat} (hc : l.candidate = some c) :
    l.confirmed = if c + 3 ≤ l.clock then some c else none := by
  simp [LineController.confirmed, hc]

theorem LineController.event_startBit_listening {l : LineController} {p : Poll} {c : Nat} (hp : l.poll = some p)
    (hph : p.phase = .listening) (hc : l.candidate = some c) (hclock : c + 3 ≤ l.clock) : l.event = some (.startBit c) := by
  simp [LineController.event, hp, hph, LineController.windowEvent, LineController.confirmed_of_candidate hc, hclock]

theorem LineController.event_startBit_receiving {l : LineController} {p : Poll} {c : Nat} (hp : l.poll = some p)
    (hph : p.phase = .receiving) (hb : p.byteStart = none) (hc : l.candidate = some c) (hclock : c + 3 ≤ l.clock) :
    l.event = some (.startBit c) := by
  simp [LineController.event, hp, hph, hb, LineController.receptionEvent, LineController.confirmed_of_candidate hc, hclock]

theorem LineController.event_listening {l : LineController} {p : Poll} (hp : l.poll = some p) (hph : p.phase = .listening)
    (hc : l.candidate = none) (hclock : l.clock ≤ p.pollEnd + 400) : l.event = none := by
  simp [LineController.event, hp, hph, LineController.windowEvent, LineController.confirmed, hc, windowTicks,
    Nat.not_lt.mpr hclock]

/-- A candidate that its confirming sample has not settled keeps the window open. -/
theorem LineController.event_unsettled {l : LineController} {p : Poll} {c : Nat} (hp : l.poll = some p)
    (hph : p.phase = .listening) (hc : l.candidate = some c) (hclock : l.clock < c + 3) : l.event = none := by
  simp [LineController.event, hp, hph, LineController.windowEvent, LineController.confirmed_of_candidate hc, hc,
    Nat.not_le.mpr hclock]

theorem LineController.event_stopBit {l : LineController} {p : Poll} {start : Nat} (hp : l.poll = some p)
    (hph : p.phase = .receiving) (hb : p.byteStart = some start) (hclock : start + 38 < l.clock) : l.event = some .stopBit := by
  simp [LineController.event, hp, hph, hb, LineController.receptionEvent, stopTick, hclock]

theorem LineController.event_inByte {l : LineController} {p : Poll} {start : Nat} (hp : l.poll = some p)
    (hph : p.phase = .receiving) (hb : p.byteStart = some start) (hclock : l.clock ≤ start + 38)
    (hlimit : l.clock ≤ p.pollEnd + 2800) : l.event = none := by
  simp [LineController.event, hp, hph, hb, LineController.receptionEvent, stopTick, receptionTicks, Nat.not_lt.mpr hclock,
    Nat.not_lt.mpr hlimit]

end Sys2Proof.Machine
end

section
/-! Sending a poll and opening the reply window (R17, R19 to R22, R24). -/

namespace Sys2Proof.Machine

/-! ## POLL_SEND -/

/-- The samples after which a poll can be sent bring POLL_SEND about. -/
theorem exec_pollSend {s : State} {line : Samples} {l : LineController} {p : Poll} (hs : s.power = .on)
    (hl : s.lc.pass line = some l) (hp : l.poll = some p) (hph : p.phase = .waitIdle) (hidle : 80 ≤ l.idleRun)
    (hclock : l.clock ≤ p.slotStart + 800) : exec (.pollSend line) s = .next ((s.putLine l).sendPoll p) := by
  change execPollSend s line = _
  unfold execPollSend
  exact onLine_next hs hl hp (LineController.event_send hp hph hidle hclock) (if_pos rfl)

/-- A waiting poll is still waiting after as many high samples as the idle run lacks, where the wait is not over before. -/
theorem LineController.pass_until_idle {l : LineController} {p : Poll} (hp : l.poll = some p) (hph : p.phase = .waitIdle)
    (hclock : l.clock + (80 - l.idleRun) ≤ p.slotStart + 800) :
    l.pass (List.replicate (80 - l.idleRun) true) =
      some ((List.replicate (80 - l.idleRun) true).foldl LineController.tick l) := by
  refine LineController.pass_eq_foldl fun k hk => ?_
  rw [List.length_replicate] at hk
  obtain ⟨q, hq, hpq⟩ := LineController.foldl_tick_poll ((List.replicate (80 - l.idleRun) true).take k) hp
  obtain ⟨-, -, hslot, hphase, -⟩ := hpq.keeps
  refine LineController.event_waiting hq (hphase.trans hph) ?_ ?_
  · rw [List.take_replicate, LineController.foldl_tick_highs]
    omega
  · simp only [LineController.foldl_tick_counts, List.length_take, List.length_replicate]
    omega

/-! ## The bits of a poll frame -/

/-- KIND_SEQ is the kind's nibble above the sequence (R21). -/
theorem kindSeq_eq_append (kind : PollKind) (q : BitVec 4) :
    kindSeq kind q = (match kind with | .sample => (1 : BitVec 4) | .identify => 2) ++ q := by
  revert q
  cases kind <;> decide

/-- The frame of a poll that has been sent, as R21 lays it out. -/
theorem Poll.frame_eq {p : Poll} {q : BitVec 4} (hq : p.sequenceSent = some q) :
    let hop : Byte := BitVec.ofNat 8 (p.station.val + 1)
    let kindSeq : Byte := (match p.kind with | .sample => (1 : BitVec 4) | .identify => 2) ++ q
    p.frame = [0xB4, hop, kindSeq, crc8 [hop, kindSeq]] := by
  simp only [Poll.frame, hq, Option.getD_some, pollFrame, kindSeq_eq_append]
  rfl

/-- The ten levels of a byte: the start bit, the data bits from the least significant, the stop bit (R17). -/
theorem byteLevels_getElem? (b : Byte) {j : Nat} (hj : j < 10) :
    (byteLevels b)[j]? = some (if j = 0 then false else if j = 9 then true else b.getLsbD (j - 1)) := by
  interval_cases j <;> rfl

theorem length_byteLevels (b : Byte) : (byteLevels b).length = 10 := rfl

/-- The levels of a frame are those of its bytes, ten for each. -/
theorem flatMap_byteLevels_getElem? {frame : List Byte} {k j : Nat} (hk : k < frame.length) (hj : j < 10) :
    (frame.flatMap byteLevels)[10 * k + j]? = (byteLevels (frame.getD k 0))[j]? := by
  induction frame generalizing k with
  | nil => simp at hk
  | cons b rest ih =>
    rw [List.flatMap_cons]
    cases k with
    | zero => rw [List.getElem?_append_left (by rw [length_byteLevels]; omega)]; simp
    | succ k =>
      rw [List.getElem?_append_right (by rw [length_byteLevels]; omega), length_byteLevels,
        show 10 * (k + 1) + j - 10 = 10 * k + j by omega, ih (by simpa using hk)]
      simp

theorem length_flatMap_byteLevels (frame : List Byte) : (frame.flatMap byteLevels).length = 10 * frame.length := by
  simp [List.length_flatMap, length_byteLevels, Nat.mul_comm]

theorem LineController.drive_idle {l : LineController} (hp : l.poll = none) : l.drive = none := by
  simp [LineController.drive, hp]

theorem LineController.drive_released {l : LineController} {p : Poll} (hp : l.poll = some p) (hph : p.phase ≠ .sending) :
    l.drive = none := by
  simp [LineController.drive, hp, hph]

theorem LineController.drive_sending {l : LineController} {p : Poll} (hp : l.poll = some p) (hph : p.phase = .sending) :
    l.drive = (p.frame.flatMap byteLevels)[(l.clock - p.sentAt) / 4]? := by
  simp [LineController.drive, hp, hph]

/-- While a poll goes out, byte `k` of its frame is on the line for forty ticks, four for each of its ten levels. -/
theorem LineController.drive_bit {l : LineController} {p : Poll} (hp : l.poll = some p) (hph : p.phase = .sending)
    {k j i : Nat} (hk : k < p.frame.length) (hj : j < 10) (hi : i < 4)
    (hclock : l.clock = p.sentAt + 40 * k + 4 * j + i) :
    l.drive = some (if j = 0 then false else if j = 9 then true else (p.frame.getD k 0).getLsbD (j - 1)) := by
  have hindex : (l.clock - p.sentAt) / 4 = 10 * k + j := by omega
  rw [LineController.drive_sending hp hph, hindex, flatMap_byteLevels_getElem? hk hj, byteLevels_getElem? _ hj]

/-- Once its forty bit times are over, LC releases the line. -/
theorem LineController.drive_sent {l : LineController} {p : Poll} (hp : l.poll = some p) (hph : p.phase = .sending)
    (hclock : p.sentAt + 4 * (10 * p.frame.length) ≤ l.clock) : l.drive = none := by
  rw [LineController.drive_sending hp hph, List.getElem?_eq_none]
  rw [length_flatMap_byteLevels]
  omega

/-- Settles O16: the poll goes out as `exec_pollSend` says, high samples alone bring that moment about, and the level driven
is read off the frame's forty levels. -/
theorem pollSendCarriesTheSequence : Obligations.PollSendCarriesTheSequence := by
  refine ⟨?sent, ?idleReached, fun _ => LineController.drive_idle, ?driven⟩
  case sent =>
    intro s line l p hs hl hp hph hidle hclock
    exact exec_pollSend hs hl hp hph hidle hclock
  case idleReached =>
    intro l p hp hph hclock
    obtain ⟨q, hq, hpq⟩ := LineController.foldl_tick_poll (List.replicate (80 - l.idleRun) true) hp
    obtain ⟨hstation, hkind, hslot, hphase, -⟩ := hpq.keeps
    exact ⟨_, q, LineController.pass_until_idle hp hph hclock, by simp, LineController.foldl_tick_highs _ l, hq,
      hphase.trans hph, hslot, hstation, hkind⟩
  case driven =>
    intro l p q hp
    refine ⟨LineController.drive_released hp, fun hph hseq => ?_⟩
    have hframe := Poll.frame_eq hseq
    have hlength : p.frame.length = 4 := by rw [hframe]; rfl
    exact ⟨hframe, fun k j i hj hi hclock => LineController.drive_bit hp hph (by omega) hj hi hclock,
      fun hclock => LineController.drive_sent hp hph (by omega)⟩

/-! ## POLL_END -/

/-- Nothing falls due while LC sends the four bytes. -/
theorem LineController.pass_sending {l : LineController} {p : Poll} {line : Samples} (hp : l.poll = some p)
    (hph : p.phase = .sending) (hclock : l.clock + line.length ≤ p.sentAt + 160) :
    l.pass line = some (line.foldl LineController.tick l) := by
  refine LineController.pass_eq_foldl fun k hk => ?_
  obtain ⟨q, hq, hpq⟩ := LineController.foldl_tick_poll (line.take k) hp
  obtain ⟨-, -, -, hphase, hsent, -⟩ := hpq.keeps
  refine LineController.event_sending hq (hphase.trans hph) ?_
  simp only [LineController.foldl_tick_counts, List.length_take]
  omega

/-- The samples that end the poll bring POLL_END about. -/
theorem exec_pollEnd {s : State} {line : Samples} {l : LineController} {p : Poll} (hs : s.power = .on)
    (hl : s.lc.pass line = some l) (hp : l.poll = some p) (hph : p.phase = .sending) (hclock : p.sentAt + 160 ≤ l.clock) :
    exec (.pollEnd line) s = .next ((s.putLine l).endPoll p) := by
  change execPollEnd s line = _
  unfold execPollEnd
  exact onLine_next hs hl hp (LineController.event_sent hp hph hclock) (if_pos rfl)

/-- Settles O18: every sample of the four bytes passes, and the last one brings POLL_END about. -/
theorem pollEndOpensTheReplyWindow : Obligations.PollEndOpensTheReplyWindow := by
  intro s p line hs hp hph hclock l
  obtain ⟨q, hq, hpq⟩ := LineController.foldl_tick_poll line hp
  obtain ⟨-, -, -, hphase, hsent, -⟩ := hpq.keeps
  have hend : l.clock = p.sentAt + 160 := by simpa [l] using hclock
  have hexec := exec_pollEnd hs (LineController.pass_sending hp hph hclock.le) hq (hphase.trans hph) (hsent ▸ hend.ge)
  refine ⟨q, hq, hpq, hend, hexec.trans ?_⟩
  rw [← hend]
  rfl

/-! ## REPLY_START_BIT -/

/-- A confirmed start bit in an open window. -/
theorem exec_replyStartBit {s : State} {line : Samples} {l : LineController} {p : Poll} {c : Nat} (hs : s.power = .on)
    (hl : s.lc.pass line = some l) (hp : l.poll = some p) (hevent : l.event = some (.startBit c)) :
    exec (.replyStartBit line) s = .next ((s.putLine l).takeStartBit p c) := by
  change execReplyStartBit line s = _
  unfold execReplyStartBit
  exact onLine_next hs hl hp hevent rfl

/-- A start bit in an open window gives the latency. -/
theorem takeStartBit_listening (s : State) {p : Poll} (c : Nat) (hph : p.phase = .listening) :
    s.takeStartBit p c = s.putLine { s.lc with
      candidate := none
      poll := some { p with
        phase := .receiving, latency := some (c - p.pollEnd), byteStart := some c, byte := 0, windowFresh := false } } := by
  simp [State.takeStartBit, hph]

/-- A start bit in a reply whose buffer has room begins a byte. -/
theorem takeStartBit_receiving {s : State} {p : Poll} (c : Nat) (hph : p.phase = .receiving) (hroom : s.lc.buffer.length < 48) :
    s.takeStartBit p c = s.putLine { s.lc with
      candidate := none
      poll := some { p with byteStart := some c, byte := 0, windowFresh := false } } := by
  have hnot : s.lc.buffer.length ≠ bufferSize := hroom.ne
  simp [State.takeStartBit, hph, hnot]

/-- In a window that no low sample has met, high samples bring nothing about up to the window's end. -/
theorem LineController.pass_highs_window {l : LineController} {p : Poll} {h : Nat} (hp : l.poll = some p)
    (hph : p.phase = .listening) (hc : l.candidate = none) (hclock : l.clock + h ≤ p.pollEnd + 401) :
    l.pass (List.replicate h true) = some ((List.replicate h true).foldl LineController.tick l) := by
  refine LineController.pass_eq_foldl fun k hk => ?_
  rw [List.length_replicate] at hk
  rw [List.take_replicate, Nat.min_eq_left hk.le]
  obtain ⟨hnone, q, hq, hpq⟩ := LineController.foldl_tick_highs_window k hp hc
  refine LineController.event_listening hq (by rw [hpq]; exact hph) hnone ?_
  rw [hpq]
  simp only [LineController.foldl_tick_counts, List.length_replicate]
  omega

/-- The first low sample of a fresh window and the two samples after it: a candidate, which the second of them settles. -/
theorem LineController.pass_candidate {l : LineController} {p : Poll} (x y : Bool) (hp : l.poll = some p)
    (hph : p.phase = .listening) (hfresh : p.windowFresh = true) (hc : l.candidate = none)
    (hclock : l.clock ≤ p.pollEnd + 400) :
    l.pass [false, x, y] = some (((l.tick false).tick x).tick y) ∧
    (((l.tick false).tick x).tick y).candidate = (if y then none else some l.clock) ∧
    ∃ q, (((l.tick false).tick x).tick y).poll = some q ∧ q = { p with windowFresh := false, byte := q.byte } := by
  have hfirst : (l.tick false).candidate = some l.clock :=
    LineController.candidateAfter_begins hc (by simp [LineController.inByte, hp, hph])
      (.inr (by simp [LineController.windowFresh, hp, hph, hfresh]))
  have hsecond : ((l.tick false).tick x).candidate = some l.clock :=
    LineController.candidateAfter_unsettled hfirst (by simp)
  have hwatch : ((l.tick false).tick x).watching = true := by
    simp [LineController.watching, hp, Poll.sampled, hph]
  have hpoll1 : (l.tick false).poll = some (p.sampled l.clock false) := by simp [hp]
  have hpoll2 : ((l.tick false).tick x).poll = some ((p.sampled l.clock false).sampled (l.clock + 1) x) := by simp [hp]
  refine ⟨?_, ?_, ((p.sampled l.clock false).sampled (l.clock + 1) x).sampled (l.clock + 2) y, by simp [hp],
    by simp [Poll.sampled]⟩
  · rw [LineController.pass_cons (LineController.event_listening hp hph hc hclock),
      LineController.pass_cons (LineController.event_unsettled hpoll1 hph hfirst (by simp)),
      LineController.pass_cons (LineController.event_unsettled hpoll2 hph hsecond (by simp))]
    rfl
  · have hthird := LineController.candidateAfter_settled y hsecond (by simp)
    simpa [hwatch] using hthird

/-- Settles O19: the two ways to take a start bit, and the search in a fresh window cut into its high samples and the three
from the first low one on. -/
theorem startBitGivesTheLatency : Obligations.StartBitGivesTheLatency := by
  refine ⟨?taken, ?found⟩
  case taken =>
    intro s line l p c hs hl hp hc hclock
    constructor
    · intro hph
      rw [exec_replyStartBit hs hl hp (LineController.event_startBit_listening hp hph hc hclock),
        takeStartBit_listening _ c hph]
      rfl
    · intro hph hb hroom
      rw [exec_replyStartBit hs hl hp (LineController.event_startBit_receiving hp hph hb hc hclock),
        takeStartBit_receiving c hph hroom]
      rfl
  case found =>
    intro l p h x y hp hph hfresh hc hclock hh
    have hhighs := LineController.pass_highs_window hp hph hc (h := h) (by omega)
    obtain ⟨hnone, q, hq, hpq⟩ := LineController.foldl_tick_highs_window h hp hc
    set m := (List.replicate h true).foldl LineController.tick l with hm
    have hat : m.clock = p.pollEnd + h := by simp [hm, hclock]
    obtain ⟨hpass, hcand, r, hr, hqr⟩ := LineController.pass_candidate x y hq (by rw [hpq]; exact hph)
      (by rw [hpq]; exact hfresh) hnone (by rw [hat, hpq]; simpa using hh)
    refine ⟨_, r, by rw [LineController.pass_append, hhighs]; exact hpass, ?_, ?_, ?_, hr, ?_⟩
    · simp [hat]
    · rw [hcand, hat]
    · simp [hm]
    · rw [hqr, hpq]

end Sys2Proof.Machine
end

section
/-! Reading a reply's bytes, and samples outside them (R17, R18, R25, R26, R33). -/

namespace Sys2Proof.Machine

/-! ## LINE_LOW_SAMPLE -/

/-- Samples that pass and end low are taken by LINE_LOW_SAMPLE. -/
theorem exec_lineLowSample {s : State} {line : Samples} {l : LineController} (hs : s.power = .on)
    (hl : s.lc.pass (line ++ [false]) = some l) :
    exec (.lineLowSample (line ++ [false])) s = .next (s.putLine l) := by
  change execLineLowSample (line ++ [false]) s = _
  simp [execLineLowSample, hl, hs]

/-- With no poll in flight any samples pass. -/
theorem LineController.pass_idle_eq (line : Samples) {l : LineController} (hp : l.poll = none) :
    l.pass line = some (line.foldl LineController.tick l) := by
  obtain ⟨m, hm⟩ := Option.isSome_iff_exists.mp (LineController.pass_idle line l hp)
  rw [hm, LineController.pass_foldl hm]

theorem LineController.watching_iff {l : LineController} :
    l.watching = true ↔ ∃ p, l.poll = some p ∧ (p.phase = .listening ∨ p.phase = .receiving) := by
  cases hp : l.poll <;> simp [LineController.watching, hp]

theorem LineController.inByte_iff {l : LineController} :
    l.inByte = true ↔ ∃ p c, l.poll = some p ∧ p.phase = .receiving ∧ p.byteStart = some c := by
  cases hp : l.poll <;> simp [LineController.inByte, hp, Option.isSome_iff_exists]

theorem LineController.windowFresh_iff {l : LineController} :
    l.windowFresh = true ↔ ∃ p, l.poll = some p ∧ p.phase = .listening ∧ p.windowFresh = true := by
  cases hp : l.poll <;> simp [LineController.windowFresh, hp]

/-- Settles O22: the effect of the samples is that of their ticks, one by one. -/
theorem lowSampleClearsTheIdleRun : Obligations.LowSampleClearsTheIdleRun := by
  refine ⟨?unpolled, fun s line l hs hl => exec_lineLowSample hs hl, fun l line n => ⟨?_, ?_⟩, fun l b => ?oneSample⟩
  case unpolled =>
    intro s line hs hp
    refine ⟨_, exec_lineLowSample hs (LineController.pass_idle_eq _ hp), ?_, ?_, LineController.foldl_tick_idle _ hp, ?_⟩
    · simp [List.foldl_append]
    · simp [Nat.add_assoc]
    · simp
  · rw [List.foldl_append, LineController.foldl_tick_highs]
    simp [List.foldl_append]
  · exact LineController.foldl_tick_highs n l
  case oneSample =>
    intro awaited inByte firstLow m
    have hwatching : l.watching = true ↔ awaited := LineController.watching_iff
    have hinByte : l.inByte = true ↔ inByte := LineController.inByte_iff
    have hfresh : l.windowFresh = true ↔ firstLow := LineController.windowFresh_iff
    refine ⟨by simp [m], by simp [m], ?begins, ?none, fun c hc => ⟨?_, ?rejected, ?confirmed⟩⟩
    case begins =>
      rintro hc rfl hb hlow
      rw [← hinByte, Bool.not_eq_true] at hb
      exact LineController.candidateAfter_begins hc hb (by rwa [hfresh])
    case none =>
      intro hc h
      rw [← hinByte, ← hfresh, Bool.not_eq_true] at h
      exact LineController.candidateAfter_none hc h
    · exact LineController.candidateAfter_unsettled hc
    case rejected =>
      rintro hclock rfl
      exact LineController.candidateAfter_settled true hc hclock
    case confirmed =>
      rintro hclock rfl
      have hsettled : m.candidate = _ := LineController.candidateAfter_settled false hc hclock
      rw [← hwatching]
      exact ⟨fun hw => by simp [hsettled, hw], fun hw => by simp [hsettled, hw]⟩

/-! ## The bits of a received byte (R17) -/

/-- How many of the data bits of a byte have been sampled when LC's clock stands at `clock`, with the byte's first low sample at
`start`. -/
def bitsRead (start clock : Nat) : Nat := min 8 ((clock - (start + 3)) / 4)

/-- The newest bits of the byte being read are the levels at the ticks of R17, the oldest of them lowest. -/
def Poll.HoldsBits (p : Poll) (start clock : Nat) (level : Nat → Bool) : Prop :=
  ∀ k < bitsRead start clock, p.byte.getLsbD (8 - bitsRead start clock + k) = level (start + 6 + 4 * k)

/-- A bit joins at the top, and the others move down one place. -/
theorem getLsbD_shiftIn (byte : Byte) (b : Bool) (i : Nat) :
    (shiftIn byte b).getLsbD i = if i = 7 then b else byte.getLsbD (i + 1) := by
  by_cases hi : i < 8
  · interval_cases i <;> cases b <;> simp [shiftIn]
  · have : i ≠ 7 := by omega
    rw [if_neg this, BitVec.getLsbD_of_ge _ _ (by omega), BitVec.getLsbD_of_ge _ _ (by omega)]

theorem Poll.readsBit_iff {p : Poll} {start n : Nat} (hb : p.byteStart = some start) :
    p.readsBit n = true ↔ bitsRead start n < 8 ∧ n = start + 6 + 4 * bitsRead start n := by
  simp only [Poll.readsBit, hb, bitsRead, Bool.and_eq_true, decide_eq_true_eq, beq_iff_eq]
  omega

/-- A sample at one of the ticks of R17 is one bit more; any other sample is none. -/
theorem bitsRead_succ {p : Poll} {start n : Nat} (hb : p.byteStart = some start) :
    bitsRead start (n + 1) = if p.readsBit n then bitsRead start n + 1 else bitsRead start n := by
  split
  · next hread =>
    obtain ⟨hlt, hn⟩ := (Poll.readsBit_iff hb).mp hread
    unfold bitsRead at *
    omega
  · next hread =>
    rw [Poll.readsBit_iff hb] at hread
    unfold bitsRead at *
    omega

/-- One sample keeps the promise of `Poll.HoldsBits`. -/
theorem Poll.HoldsBits.sampled {p : Poll} {start n : Nat} {level : Nat → Bool} (h : p.HoldsBits start n level)
    (hb : p.byteStart = some start) : (p.sampled n (level n)).HoldsBits start (n + 1) level := by
  intro k hk
  rw [bitsRead_succ hb] at hk ⊢
  cases hread : p.readsBit n with
  | false =>
    simp only [hread] at hk ⊢
    simpa [Poll.sampled, hread] using h k hk
  | true =>
    obtain ⟨hlt, hn⟩ := (Poll.readsBit_iff hb).mp hread
    simp only [hread, if_true] at hk ⊢
    simp only [Poll.sampled, hread, if_true, getLsbD_shiftIn]
    split
    · next hlast => rw [show k = bitsRead start n by omega, ← hn]
    · next hlast =>
      rw [← h k (by omega)]
      congr 1
      omega

/-- So does a run of samples. -/
theorem LineController.foldl_tick_holdsBits {line : Samples} {l : LineController} {p : Poll} {start : Nat}
    {level : Nat → Bool} (hp : l.poll = some p) (hb : p.byteStart = some start) (hbits : p.HoldsBits start l.clock level)
    (hlevel : ∀ i < line.length, line.getD i false = level (l.clock + i)) :
    ∃ q, (line.foldl LineController.tick l).poll = some q ∧ q.HoldsBits start (l.clock + line.length) level := by
  induction line generalizing l p with
  | nil => exact ⟨p, hp, hbits⟩
  | cons b rest ih =>
    have hfirst : b = level l.clock := hlevel 0 (by simp)
    have hstep : (l.tick b).poll = some (p.sampled l.clock b) := by simp [hp]
    have hrest : ∀ i < rest.length, rest.getD i false = level ((l.tick b).clock + i) := fun i hi => by
      have h := hlevel (i + 1) (by simpa using hi)
      simpa [Nat.add_comm, Nat.add_left_comm] using h
    obtain ⟨q, hq, hbits'⟩ := ih hstep hb (by rw [hfirst]; exact hbits.sampled hb) hrest
    refine ⟨q, hq, ?_⟩
    have hclock : (l.tick b).clock + rest.length = l.clock + (b :: rest).length := by simp; omega
    rwa [hclock] at hbits'

/-- A byte read from before its first data bit to its stop bit holds the eight levels of R17. -/
theorem LineController.foldl_tick_byte {line : Samples} {l : LineController} {p : Poll} {start : Nat} (hp : l.poll = some p)
    (hb : p.byteStart = some start) (hclock : l.clock ≤ start + 6) (hlength : l.clock + line.length = start + 39) :
    ∃ q, (line.foldl LineController.tick l).poll = some q ∧
      ∀ k < 8, line.getD (start + 6 + 4 * k - l.clock) false = q.byte.getLsbD k := by
  have hnone : bitsRead start l.clock = 0 := by unfold bitsRead; omega
  have hall : bitsRead start (start + 39) = 8 := by unfold bitsRead; omega
  have hbits : p.HoldsBits start l.clock fun t => line.getD (t - l.clock) false := fun k hk => by omega
  obtain ⟨q, hq, h⟩ := LineController.foldl_tick_holdsBits (line := line) hp hb hbits fun i _ => by
    rw [Nat.add_sub_cancel_left]
  refine ⟨q, hq, fun k hk => ?_⟩
  rw [hlength] at h
  have hk' := h k (by omega)
  rw [hall] at hk'
  simpa using hk'.symm

/-- Nothing falls due inside a byte before its stop bit is sampled. -/
theorem LineController.pass_inByte {l : LineController} {p : Poll} {start : Nat} {line : Samples} (hp : l.poll = some p)
    (hph : p.phase = .receiving) (hb : p.byteStart = some start) (hlength : l.clock + line.length ≤ start + 39)
    (hlimit : start + 38 ≤ p.pollEnd + 2800) : l.pass line = some (line.foldl LineController.tick l) := by
  refine LineController.pass_eq_foldl fun k hk => ?_
  obtain ⟨q, hq, hpq⟩ := LineController.foldl_tick_poll (line.take k) hp
  obtain ⟨-, -, -, hphase, -, hend, hstart⟩ := hpq.keeps
  have hat : ((line.take k).foldl LineController.tick l).clock = l.clock + k := by
    simp [Nat.min_eq_left hk.le]
  exact LineController.event_inByte hq (hphase.trans hph) (hstart.trans hb) (by omega) (by omega)

/-! ## The outcomes of an exchange -/

/-- An outcome that is neither GOOD nor HOP_MISMATCH is a miss of an ACTIVE station (R8). -/
theorem takeOutcome_active {s : State} {st : Station} {kind : PollKind} {latency : Nat} {o : ReplyOutcome}
    (hst : s.sm.nodes[st].state = .active) (hgood : ∀ node places samples, o ≠ .good node places samples)
    (hhop : o ≠ .hopMismatch) : s.takeOutcome st kind latency o = s.miss st := by
  cases o with
  | good node places samples => exact absurd rfl (hgood node places samples)
  | hopMismatch => exact absurd rfl hhop
  | _ => unfold State.takeOutcome; rw [hst]

/-- An outcome other than GOOD of a station that is not ACTIVE changes nothing (R9). -/
theorem takeOutcome_inactive {s : State} {st : Station} {kind : PollKind} {latency : Nat} {o : ReplyOutcome}
    (hst : s.sm.nodes[st].state ≠ .active) (hgood : ∀ node places samples, o ≠ .good node places samples) :
    s.takeOutcome st kind latency o = s := by
  cases o with
  | good node places samples => exact absurd rfl (hgood node places samples)
  | _ =>
    unfold State.takeOutcome
    cases h : s.sm.nodes[st].state with
    | active => exact absurd h hst
    | absent => rfl
    | linkLost => rfl

/-- A miss below the retry limit raises the miss count and changes nothing else (R8). -/
theorem miss_below_limit {s : State} {st : Station}
    (h : min (s.sm.nodes[st].misses + 1) 15 < s.tables.globals.retryLimit) :
    s.miss st = { s with sm := { s.sm with
      nodes := s.sm.nodes.set st { s.sm.nodes[st] with misses := min (s.sm.nodes[st].misses + 1) 15 } } } := by
  rw [State.miss, if_neg]
  · rfl
  · simp only [State.setNode, upd_at]
    omega

@[simp] theorem putLine_lc (s : State) (l : LineController) : (s.putLine l).lc = l := rfl

/-- An outcome goes to SM with no poll in flight any more (R31). -/
theorem deliver_putLine (s : State) (l : LineController) (p : Poll) (o : ReplyOutcome) :
    (s.putLine l).deliver p o =
      ({ s with lc := { l with poll := none } } : State).takeOutcome p.station p.kind (p.latency.getD 0) o := rfl

/-- An outcome that is neither GOOD nor HOP_MISMATCH ends the exchange as a failed one. -/
theorem exchangeFailed_deliver (s : State) (l : LineController) (p : Poll) {o : ReplyOutcome}
    (hgood : ∀ node places samples, o ≠ .good node places samples) (hhop : o ≠ .hopMismatch) :
    ExchangeFailed s { l with poll := none } ((s.putLine l).deliver p o) p.station := by
  let u : State := { s with lc := { l with poll := none } }
  rw [deliver_putLine]
  exact ⟨by simp, fun hst => takeOutcome_inactive (s := u) hst hgood,
    fun hst hbelow => (takeOutcome_active (s := u) hst hgood hhop).trans (miss_below_limit (s := u) hbelow)⟩

/-! ## REPLY_BYTE_READ and REPLY_RECEIVED -/

/-- The samples of a byte's command pass and leave LC where `StopBitSampled` says. -/
theorem StopBitSampled.pass {s : State} {line : Samples} {stop : Bool} {l : LineController} (h : StopBitSampled s line stop l)
    (hevent : l.event = some .stopBit) : s.lc.pass (s.lc.toStopBit line stop) = some l := by
  rcases h with hpass | ⟨rfl, rfl, hstop⟩
  · rw [LineController.toStopBit_of_pass hpass, hpass]
  · have hlevel : stop = s.lc.lastLevel := by
      rw [Bool.eq_iff_iff, hstop]
      simp [LineController.lastLevel]
    rw [hlevel, LineController.toStopBit_of_sampled hevent]
    rfl

/-- REPLY_BYTE_READ takes a byte that does not complete the reply, or is badly framed. -/
theorem exec_replyByteRead {s : State} {line : Samples} {stop : Bool} {l : LineController} {p : Poll} (hs : s.power = .on)
    (h : StopBitSampled s line stop l) (hp : l.poll = some p) (hevent : l.event = some .stopBit)
    (hbyte : l.badlyFramed p.byte = true ∨ l.completes p.byte = false) :
    exec (.replyByteRead line stop) s = .next ((s.putLine l).readByte p) := by
  change execReplyByteRead line stop s = _
  unfold execReplyByteRead
  refine onLine_next hs (h.pass hevent) hp hevent (if_pos ⟨rfl, ?_⟩)
  rcases hbyte with hb | hb <;> simp [hb]

/-- REPLY_RECEIVED takes a byte that completes the reply, or is badly framed. -/
theorem exec_replyReceived {s : State} {line : Samples} {stop : Bool} {l : LineController} {p : Poll} (hs : s.power = .on)
    (h : StopBitSampled s line stop l) (hp : l.poll = some p) (hevent : l.event = some .stopBit)
    (hbyte : l.badlyFramed p.byte = true ∨ l.completes p.byte = true) :
    exec (.replyReceived line stop) s = .next ((s.putLine l).readByte p) := by
  change execReplyReceived line stop s = _
  unfold execReplyReceived
  refine onLine_next hs (h.pass hevent) hp hevent (if_pos ⟨rfl, ?_⟩)
  rcases hbyte with hb | hb <;> simp [hb]

/-- R25: a stop bit read as 0, or a byte 0 other than SYNC. -/
theorem LineController.badlyFramed_iff {l : LineController} {b : Byte} :
    l.badlyFramed b = true ↔ l.idleRun = 0 ∨ l.buffer = [] ∧ b ≠ 0xB4 := by
  simp [LineController.badlyFramed, LineController.lastLevel, sync]

theorem LineController.completes_eq_false {l : LineController} {b : Byte} :
    l.completes b = false ↔ expectedLength (l.buffer ++ [b]) ≠ some (l.buffer.length + 1) := by
  simp [LineController.completes]

theorem readByte_badlyFramed {s : State} {p : Poll} (h : s.lc.badlyFramed p.byte = true) :
    s.readByte p = s.deliver p .framing := by
  simp [State.readByte, h]

theorem readByte_stored {s : State} {p : Poll} (hframed : s.lc.badlyFramed p.byte = false)
    (hmore : s.lc.completes p.byte = false) :
    s.readByte p = s.putLine { s.lc with
      buffer := s.lc.buffer ++ [p.byte], poll := some { p with byteStart := none } } := by
  simp [State.readByte, hframed, hmore]

/-- Settles O20: the bits by `LineController.foldl_tick_byte`, and the byte's two fates by its framing. -/
theorem replyBytesAreStored : Obligations.ReplyBytesAreStored := by
  refine ⟨?bits, ?byte⟩
  case bits =>
    intro l p start line hp hph hb hclock hlimit hlength
    obtain ⟨q, hq, hpq⟩ := LineController.foldl_tick_poll line hp
    obtain ⟨q', hq', hbyte⟩ := LineController.foldl_tick_byte hp hb hclock hlength
    obtain rfl : q' = q := Option.some.inj (hq'.symm.trans hq)
    have hne : line ≠ [] := by rintro rfl; simp at hlength; omega
    exact ⟨_, q', LineController.pass_inByte hp hph hb hlength.le hlimit, by simp [hlength], by simp, hq, hpq, hbyte,
      LineController.idleRun_pos_foldl_tick l hne⟩
  case byte =>
    intro s line stop l p start hs hstop hp hph hb hclock
    have hevent : l.event = some .stopBit := LineController.event_stopBit hp hph hb (by omega)
    constructor
    · intro hidle hsync hmore
      have hframed : l.badlyFramed p.byte = false := by
        rw [Bool.eq_false_iff, ne_eq, LineController.badlyFramed_iff]
        rintro (h | ⟨hempty, h⟩)
        · omega
        · exact h (hsync hempty)
      have hcompletes := LineController.completes_eq_false.mpr hmore
      rw [exec_replyByteRead hs hstop hp hevent (.inr hcompletes), readByte_stored hframed hcompletes]
      rfl
    · intro hbad
      have hframed : l.badlyFramed p.byte = true := LineController.badlyFramed_iff.mpr hbad
      have hfailed : ExchangeFailed s { l with poll := none } ((s.putLine l).readByte p) p.station := by
        rw [readByte_badlyFramed hframed]
        exact exchangeFailed_deliver s l p (by simp) (by simp)
      exact ⟨⟨_, exec_replyByteRead hs hstop hp hevent (.inl hframed), hfailed⟩,
        ⟨_, exec_replyReceived hs hstop hp hevent (.inl hframed), hfailed⟩⟩

end Sys2Proof.Machine
end

section
/-! The checks of a whole reply, and what a GOOD one hands over (R22, R26, R28 to R32). -/

namespace Sys2Proof.Machine

/-! ## The expected length (R26) -/

theorem expectedLength_short {bytes : List Byte} (h : bytes.length < 4) : expectedLength bytes = none := by
  match bytes, h with
  | [], _ | [_], _ | [_, _], _ | [_, _, _], _ => rfl

/-- Once PLACES is stored, KIND_SEQ and PLACES decide the length. -/
theorem expectedLength_header (b0 node kindSeq places : Byte) (rest : List Byte) :
    expectedLength (b0 :: node :: kindSeq :: places :: rest) =
      if kindSeq.toNat / 16 = 1 ∧ 1 ≤ places.toNat ∧ places.toNat ≤ 4 then some (4 + 9 * places.toNat + 2)
      else if kindSeq.toNat / 16 = 2 then some 7 else none := rfl

/-! ## The CRC-16 (R28) -/

theorem times_eq_iterate {α : Type} (f : α → α) (n : Nat) (a : α) : times f n a = f^[n] a := by
  induction n generalizing a with
  | zero => rfl
  | succ n ih => simp [times, ih]

/-- One shift of the remainder, with the polynomial added where a 1 leaves the top. -/
theorem crc16Shift_eq (r : Word) :
    crc16Shift r = (r <<< 1) ^^^ (if r.getLsbD 15 = true then (0x1021 : Word) else 0) := by
  rw [crc16Shift, BitVec.msb_eq_getLsbD_last]
  split <;> simp_all

/-- The CRC-16 of the nine digits, the usual check value of this polynomial and start. -/
theorem crc16_digits : crc16 [0x31, 0x32, 0x33, 0x34, 0x35, 0x36, 0x37, 0x38, 0x39] = 0x29B1 := by decide +kernel

/-- A byte below a bit vector is its lowest digit. -/
theorem toNat_append_byte {n : Nat} (x : BitVec n) (b : Byte) : (x ++ b).toNat = b.toNat + 256 * x.toNat := by
  rw [BitVec.toNat_append, ← Nat.shiftLeft_add_eq_or_of_lt b.isLt, Nat.shiftLeft_eq]
  omega

/-- Each byte joins the top half of the remainder, which then takes eight shifts. -/
theorem crc16_append (bytes : List Byte) (b : Byte) :
    crc16 (bytes ++ [b]) =
      (fun r : Word => (r <<< 1) ^^^ (if r.getLsbD 15 = true then (0x1021 : Word) else 0))^[8]
        (crc16 bytes ^^^ (b ++ (0 : Byte))) := by
  have hshift : (fun r : Word => (r <<< 1) ^^^ (if r.getLsbD 15 = true then (0x1021 : Word) else 0)) = crc16Shift :=
    funext fun r => (crc16Shift_eq r).symm
  have hbyte : (b.setWidth 16 : Word) <<< (8 : Nat) = b ++ (0 : Byte) := by
    apply BitVec.eq_of_toNat_eq
    rw [toNat_append_byte, BitVec.toNat_shiftLeft, Nat.shiftLeft_eq, BitVec.toNat_setWidth]
    simp
    omega
  rw [hshift, ← times_eq_iterate, ← hbyte]
  simp [crc16]

/-- The two check bytes are the CRC-16 of the bytes between SYNC and them, the high one first. -/
theorem crcOk_iff (first high low : Byte) (body : List Byte) :
    crcOk (first :: (body ++ [high, low])) = true ↔ crc16 body = (high ++ low : Word) := by
  simp [crcOk]

/-! ## The checks of a frame (R29 to R31) -/

/-- R29: NODE is neither 0 nor 255, and PLACES is 1 to 4. -/
theorem nodeOk_iff (b0 node kindSeq places : Byte) (rest : List Byte) :
    nodeOk (b0 :: node :: kindSeq :: places :: rest) = true ↔
      node ≠ 0 ∧ node ≠ 255 ∧ 1 ≤ places.toNat ∧ places.toNat ≤ 4 := by
  have hzero : node ≠ 0 ↔ 1 ≤ node.toNat := by bv_omega
  have htop : node ≠ 255 ↔ node.toNat ≤ 254 := by bv_omega
  rw [hzero, htop]
  simp [nodeOk, and_assoc]

/-- A byte is the KIND_SEQ of a poll when its two nibbles are the kind and the sequence. -/
theorem eq_kindSeq_iff (b : Byte) (kind : PollKind) (q : BitVec 4) :
    b = kindSeq kind q ↔ b.toNat / 16 = (match kind with | .sample => 1 | .identify => 2) ∧ b.toNat % 16 = q.toNat := by
  cases kind <;> simp only [kindSeq, byteOf, PollKind.code] <;> bv_omega

theorem sequenceOk_iff {p : Poll} {q : BitVec 4} (hq : p.sequenceSent = some q) (b0 node kindSeq places : Byte)
    (rest : List Byte) :
    sequenceOk p (b0 :: node :: kindSeq :: places :: rest) = true ↔
      kindSeq.toNat / 16 = (match p.kind with | .sample => 1 | .identify => 2) ∧ kindSeq.toNat % 16 = q.toNat := by
  rw [← eq_kindSeq_iff]
  simp [sequenceOk, hq]

/-- R30: the latency is within 4 ticks of 80 + 16·s. -/
theorem hopOk_iff (st : Station) (l : Nat) :
    hopOk st l = true ↔
      ¬ (4 < (l : Int) - (80 + 16 * (st.val + 1)) ∨ 4 < (80 + 16 * (st.val + 1) : Int) - l) := by
  rw [hopOk, Bool.and_eq_true, decide_eq_true_iff, decide_eq_true_iff, expectedLatency, stationNumber]
  omega

/-- R31: the first check that fails gives the outcome. -/
theorem frameOutcome_crc {p : Poll} {buffer : List Byte} (hcrc : crcOk buffer = false) : frameOutcome p buffer = .crc := by
  simp [frameOutcome, hcrc]

theorem frameOutcome_badNode {p : Poll} {buffer : List Byte} (hcrc : crcOk buffer = true) (hnode : nodeOk buffer = false) :
    frameOutcome p buffer = .badNode := by
  simp [frameOutcome, hcrc, hnode]

theorem frameOutcome_sequence {p : Poll} {buffer : List Byte} (hcrc : crcOk buffer = true) (hnode : nodeOk buffer = true)
    (hseq : sequenceOk p buffer = false) : frameOutcome p buffer = .sequence := by
  simp [frameOutcome, hcrc, hnode, hseq]

theorem frameOutcome_hopMismatch {p : Poll} {buffer : List Byte} (hcrc : crcOk buffer = true) (hnode : nodeOk buffer = true)
    (hseq : sequenceOk p buffer = true) (hhop : hopOk p.station (p.latency.getD 0) = false) :
    frameOutcome p buffer = .hopMismatch := by
  simp [frameOutcome, hcrc, hnode, hseq, hhop]

theorem frameOutcome_good {p : Poll} {buffer : List Byte} (hcrc : crcOk buffer = true) (hnode : nodeOk buffer = true)
    (hseq : sequenceOk p buffer = true) (hhop : hopOk p.station (p.latency.getD 0) = true) :
    frameOutcome p buffer = .good (buffer.getD 1 0) (buffer.getD 3 0).toNat (match p.kind with
      | .sample => placeSamples buffer (buffer.getD 3 0).toNat
      | .identify => []) := by
  simp only [frameOutcome, hcrc, hnode, hseq, hhop]
  rfl

/-! ## The place records (R32) -/

/-- The 64-bit value of record bytes 0 to 7, byte 0 least significant. -/
theorem littleEndian_eq_toNat (b0 b1 b2 b3 b4 b5 b6 b7 : Byte) :
    littleEndian [b0, b1, b2, b3, b4, b5, b6, b7] =
      (b7 ++ b6 ++ b5 ++ b4 ++ b3 ++ b2 ++ b1 ++ b0 : BitVec 64).toNat := by
  simp only [toNat_append_byte]
  simp [littleEndian]

theorem getLsbD_eq_digit (v : BitVec 64) (i : Nat) : v.getLsbD i = (v.toNat / 2 ^ i % 2 == 1) := by
  rw [BitVec.getLsbD, Nat.testBit_eq_decide_div_mod_eq]
  rfl

/-- Two bits as a number name the tag reading. -/
theorem tagOf_bits (v : BitVec 64) :
    tagOf (v.toNat / 2 ^ 60 % 4) = (match v.getLsbD 61, v.getLsbD 60 with
      | false, false => .none
      | false, true => .rearward
      | true, false => .forward
      | true, true => .unreadable) := by
  have hhigh : v.toNat / 2 ^ 61 % 2 = v.toNat / 2 ^ 60 % 4 / 2 := by omega
  have hlow : v.toNat / 2 ^ 60 % 2 = v.toNat / 2 ^ 60 % 4 % 2 := by omega
  have hlt : v.toNat / 2 ^ 60 % 4 < 4 := by omega
  rw [getLsbD_eq_digit, getLsbD_eq_digit, hhigh, hlow]
  interval_cases v.toNat / 2 ^ 60 % 4 <;> rfl

/-- A place record decodes to the fields of its 64-bit value and its buckle byte. -/
theorem decodeRecord_fields (b0 b1 b2 b3 b4 b5 b6 b7 b8 : Byte) :
    let v : BitVec 64 := b7 ++ b6 ++ b5 ++ b4 ++ b3 ++ b2 ++ b1 ++ b0
    let x := decodeRecord [b0, b1, b2, b3, b4, b5, b6, b7, b8]
    (∀ c : Fin 6, x.cells[c] = (v.extractLsb' (10 * c.val) 10).toNat) ∧ x.tag = tagOf (v.toNat / 2 ^ 60 % 4) ∧
    x.disturbed = v.getLsbD 62 ∧ x.buckle = readingOf b8 := by
  intro v x
  have hv : littleEndian ([b0, b1, b2, b3, b4, b5, b6, b7, b8].take 8) = v.toNat := littleEndian_eq_toNat ..
  refine ⟨fun c => ?_, ?_, ?_, rfl⟩
  · simp only [x, decodeRecord, hv, Fin.getElem_fin, Vector.getElem_ofFn, BitVec.extractLsb'_toNat, Nat.shiftRight_eq_div_pow]
  · simp only [x, decodeRecord, hv]
  · simp only [x, decodeRecord, hv, getLsbD_eq_digit]

/-! ## The latency that SM writes (R30) -/

theorem setNode_at (s : State) (st : Station) (f : Node → Node) : (s.setNode st f).sm.nodes[st] = f s.sm.nodes[st] :=
  upd_at ..

/-- A link loss makes the station LINK_LOST and leaves the rest of its record alone (R10). -/
theorem linkLoss_node (s : State) (st : Station) :
    (s.linkLoss st).sm.nodes[st] = { s.sm.nodes[st] with state := .linkLost } := by
  have hquality (t : State) := forEach_keeps State.sm (t.routedPositions st)
    (fun p u => u.setQuality p fun q => { q with linkDown := true }) t (by simp)
  have hsm : (s.linkLoss st).sm = (s.setNode st fun n => { n with state := .linkLost }).sm := by
    simp [State.linkLoss, hquality]
  rw [hsm, setNode_at]

/-- A miss counts, with the link loss at the retry limit, and leaves the latency alone (R8). -/
theorem miss_latency (s : State) (st : Station) : (s.miss st).sm.nodes[st].latency = s.sm.nodes[st].latency := by
  unfold State.miss
  dsimp only
  split
  · rw [linkLoss_node, setNode_at]
  · rw [setNode_at]

/-- A HOP_MISMATCH writes the latency (R8). -/
theorem noteHop_node (s : State) (st : Station) (l : Nat) :
    (s.noteHop st l).sm.nodes[st] = { s.sm.nodes[st] with latency := l, hopReported := true } := by
  have hsm : (s.noteHop st l).sm = (s.setNode st fun n => { n with latency := l, hopReported := true }).sm := by
    unfold State.noteHop
    dsimp only
    split <;> simp
  rw [hsm, setNode_at]

/-- A calibration lookup writes the index that the table gives for the station's node (R13). -/
theorem lookupCalibration_node (s : State) (st : Station) :
    (s.lookupCalibration st).sm.nodes[st] =
      { s.sm.nodes[st] with calIndex := s.tables.findCalibration s.sm.nodes[st].nodeId } := by
  have hsm : (s.lookupCalibration st).sm =
      (s.setNode st fun n => { n with calIndex := s.tables.findCalibration s.sm.nodes[st].nodeId }).sm :=
    forEach_keeps State.sm _ _ _ (by simp)
  rw [hsm, setNode_at]

/-- The record of a station after an activation (R5). -/
theorem activate_node (s : State) (st : Station) (node : Byte) (places l : Nat) :
    (s.activate st node places l).sm.nodes[st] = { s.sm.nodes[st] with
      state := .active, nodeId := node, places := places, misses := 0, latency := l, hopReported := false,
      calIndex := s.tables.findCalibration node } := by
  have hsm : (s.activate st node places l).sm = (State.lookupCalibration (s.setNode st fun n => { n with
      state := .active, nodeId := node, places := places, misses := 0, latency := l, hopReported := false }) st).sm := by
    simp [State.activate]
  rw [hsm, lookupCalibration_node, setNode_at]
  simp

/-- The record of a station after a seat change (R11). -/
theorem seatChange_node (s : State) (st : Station) (node : Byte) (places l : Nat) :
    (s.seatChange st node places l).sm.nodes[st] = { s.sm.nodes[st] with
      nodeId := node, places := places, misses := 0, latency := l, hopReported := false,
      calIndex := s.tables.findCalibration node } := by
  have hsm : (s.seatChange st node places l).sm =
      (State.lookupCalibration ((s.flushStation st).setNode st fun n => { n with
        nodeId := node, places := places, misses := 0, latency := l, hopReported := false }) st).sm := by
    simp [State.seatChange]
  rw [hsm, lookupCalibration_node, setNode_at]
  simp

/-- A HOP_MISMATCH of an ACTIVE station leaves the latency it was handed. -/
theorem takeOutcome_hopMismatch_latency {s : State} {st : Station} (kind : PollKind) (l : Nat)
    (hst : s.sm.nodes[st].state = .active) : (s.takeOutcome st kind l .hopMismatch).sm.nodes[st].latency = l := by
  have heq : s.takeOutcome st kind l .hopMismatch = (s.noteHop st l).miss st := by
    unfold State.takeOutcome
    rw [hst]
  rw [heq, miss_latency, noteHop_node]

theorem identifyActive_latency (s : State) (st : Station) (node : Byte) (places l : Nat) :
    (s.identifyActive st node places l).sm.nodes[st].latency = l := by
  unfold State.identifyActive
  dsimp only
  split
  · rw [setNode_at]
    rfl
  · rw [seatChange_node]

theorem sampleActive_latency (s : State) (st : Station) (node : Byte) (places l : Nat) (samples : List PlaceSample) :
    (s.sampleActive st node places l samples).sm.nodes[st].latency = l := by
  unfold State.sampleActive
  dsimp only
  split
  · rw [seatChange_node]
  · split
    · rw [miss_latency, setNode_at]
      rfl
    · simp only [deliverSamples_frame, setNode_at]
      rfl

theorem takeOutcome_identify_active {s : State} {st : Station} (l : Nat) (node : Byte) (places : Nat)
    (samples : List PlaceSample) (hst : s.sm.nodes[st].state = .active) :
    s.takeOutcome st .identify l (.good node places samples) = s.identifyActive st node places l := by
  unfold State.takeOutcome
  cases h : s.sm.nodes[st].state with
  | active => rfl
  | _ => cases hst.symm.trans h

theorem takeOutcome_sample_active {s : State} {st : Station} (l : Nat) (node : Byte) (places : Nat)
    (samples : List PlaceSample) (hst : s.sm.nodes[st].state = .active) :
    s.takeOutcome st .sample l (.good node places samples) = s.sampleActive st node places l samples := by
  unfold State.takeOutcome
  cases h : s.sm.nodes[st].state with
  | active => rfl
  | _ => cases hst.symm.trans h

theorem takeOutcome_identify_inactive {s : State} {st : Station} (l : Nat) (node : Byte) (places : Nat)
    (samples : List PlaceSample) (hst : s.sm.nodes[st].state ≠ .active) :
    s.takeOutcome st .identify l (.good node places samples) = s.activate st node places l := by
  unfold State.takeOutcome
  cases h : s.sm.nodes[st].state with
  | active => exact absurd h hst
  | absent => rfl
  | linkLost => rfl

/-- A GOOD outcome that SM acts on leaves the latency it was handed: that of an ACTIVE station, and of an IDENTIFY poll. -/
theorem takeOutcome_good_latency {s : State} {st : Station} {kind : PollKind} (l : Nat) (node : Byte) (places : Nat)
    (samples : List PlaceSample) (h : s.sm.nodes[st].state = .active ∨ kind = .identify) :
    (s.takeOutcome st kind l (.good node places samples)).sm.nodes[st].latency = l := by
  by_cases hst : s.sm.nodes[st].state = .active
  · cases kind with
    | identify => rw [takeOutcome_identify_active l node places samples hst, identifyActive_latency]
    | sample => rw [takeOutcome_sample_active l node places samples hst, sampleActive_latency]
  · obtain rfl : kind = .identify := h.resolve_left hst
    rw [takeOutcome_identify_inactive l node places samples hst, activate_node]

/-- Settles O31, check by check in the order of R31. -/
theorem latencyDecidesBetweenGoodAndHopMismatch : Obligations.LatencyDecidesBetweenGoodAndHopMismatch := by
  refine ⟨⟨fun _ => expectedLength_short, ?length⟩, ⟨rfl, crc16_digits, crc16_append, crcOk_iff⟩, ?checks, ?records,
    ?hopMismatch, ?good⟩
  case length =>
    intro b0 node kindSeq places rest kind
    rw [expectedLength_header]
    refine ⟨fun hk hlow hhigh => if_pos ⟨hk, hlow, hhigh⟩, fun hk => ?_, ?_⟩
    · rw [if_neg (by omega), if_pos hk]
    · rintro (⟨hk, rfl | hplaces⟩ | ⟨hsample, hidentify⟩)
      · rw [if_neg (by simp), if_neg (by omega)]
      · rw [if_neg (by omega), if_neg (by omega)]
      · rw [if_neg (by omega), if_neg hidentify]
  case checks =>
    intro p b0 node kindSeq places rest q l hq hl buffer nodeSound echoes far
    have hnode : nodeOk buffer = true ↔ nodeSound := nodeOk_iff ..
    have hseq : sequenceOk p buffer = true ↔ echoes := sequenceOk_iff hq ..
    have hhop : hopOk p.station (p.latency.getD 0) = true ↔ ¬ far := by rw [hl]; exact hopOk_iff ..
    refine ⟨frameOutcome_crc, fun hcrc => ⟨fun hn => ?_, fun hn he => ?_, fun hn he hf => ?_, fun hn he hf => ?_⟩⟩
    · exact frameOutcome_badNode hcrc (by rwa [← Bool.not_eq_true, hnode])
    · exact frameOutcome_sequence hcrc (hnode.mpr hn) (by rwa [← Bool.not_eq_true, hseq])
    · exact frameOutcome_hopMismatch hcrc (hnode.mpr hn) (hseq.mpr he) (by rwa [← Bool.not_eq_true, hhop, not_not])
    · exact frameOutcome_good hcrc (hnode.mpr hn) (hseq.mpr he) (hhop.mpr hf)
  case records =>
    intro b0 b1 b2 b3 b4 b5 b6 b7 b8 v x
    obtain ⟨hcells, htag, hdisturbed, hbuckle⟩ := decodeRecord_fields b0 b1 b2 b3 b4 b5 b6 b7 b8
    exact ⟨hcells, htag.trans (tagOf_bits v), hdisturbed, hbuckle⟩
  case hopMismatch =>
    intro s p l hl hst
    rw [State.deliver, hl]
    exact takeOutcome_hopMismatch_latency p.kind l hst
  case good =>
    intro s p l node places samples hl hst
    rw [State.deliver, hl]
    exact takeOutcome_good_latency l node places samples hst

end Sys2Proof.Machine
end

section
/-! What a step can do: one effect for each way in which a row of the table changes the part. -/

namespace Sys2Proof.Machine

/-- The ways in which a command changes the part: those of spec/opcode_table.json's rows, with what holds at their moments. The
rows of the line act on the part as their samples leave it, and all frames act by `State.receive`. -/
inductive RowEffect (s : State) : State → Prop where
  | nothing : RowEffect s s
  | fresh (straps : Straps) : RowEffect s { State.fresh straps with pending := s.pending }
  | blank (power : Power) : RowEffect s (State.blank power s.vp.base s.pending)
  | millisecond (hmode : s.mode ≠ .hold) : RowEffect s s.passMillisecond
  | slotStart {line : Samples} {l : LineController} (hpass : s.lc.pass line = some l) (hidle : s.lc.poll = none) :
      RowEffect s (s.putLine l).takeSlotStart
  | tick10 (hpass : s.ticksPass = true) : RowEffect s s.takeTick10
  | tick100 (hpass : s.ticksPass = true) (htaken : s.movesTaken = true) : RowEffect s s.takeTick100
  | trigger (p : Pos) : RowEffect s (s.takeTrigger p)
  | expiry (p : Pos) : RowEffect s (s.takeExpiry p)
  | deadline (p : Pos) (hmoment : s.deadlineMoment = true) (hreached : s.ru.records[p].deadlineReached s.tb.time = true) :
      RowEffect s (s.moveToStage2 p)
  | stepAdvance {line : Samples} {l : LineController} (hpass : s.lc.pass line = some l) (hready : s.stepReady = true) :
      RowEffect s (s.putLine l).goOn
  | samples {line : Samples} {l : LineController} (hpass : s.lc.pass line = some l) : RowEffect s (s.putLine l)
  | pollSend {line : Samples} {l : LineController} {p : Poll} (hpass : s.lc.pass line = some l) (hpoll : l.poll = some p) :
      RowEffect s ((s.putLine l).sendPoll p)
  | pollEnd {line : Samples} {l : LineController} {p : Poll} (hpass : s.lc.pass line = some l) (hpoll : l.poll = some p) :
      RowEffect s ((s.putLine l).endPoll p)
  | outcome {line : Samples} {l : LineController} {p : Poll} (hpass : s.lc.pass line = some l) (hpoll : l.poll = some p)
      (o : ReplyOutcome) : RowEffect s ((s.putLine l).deliver p o)
  | startBit {line : Samples} {l : LineController} {p : Poll} {c : Nat} (hpass : s.lc.pass line = some l)
      (hpoll : l.poll = some p) : RowEffect s ((s.putLine l).takeStartBit p c)
  | byte {line : Samples} {l : LineController} {p : Poll} (hpass : s.lc.pass line = some l) (hpoll : l.poll = some p) :
      RowEffect s ((s.putLine l).readByte p)
  | evaluationStart (hmay : s.mayEvaluate = true) : RowEffect s s.startEvaluation
  | storeReset {e : Evaluation} (he : s.we = some e) (hchange : s.change = .resetSettling) : RowEffect s s.settleReset
  | completion {e : Evaluation} (he : s.we = some e) (hchange : s.change ≠ .resetSettling) :
      RowEffect s (s.completeEvaluation e).callEntry
  | portTick : RowEffect s (s.putPort (s.vp.tick s.statusPeriod))
  | speedStale : RowEffect s s.handStale
  | statusDue (kind : StatusKind) : RowEffect s (s.putPort (s.vp.makeStatusPending kind))
  | suppressionDue : RowEffect s (s.putPort { s.vp with suppression := s.vp.suppression.makePending })
  | recovery : RowEffect s ((s.putPort { s.vp with busOff := false, failures := 0 }).queueEvent .busOffRecovered 0 0 0)
  | transmit {a : Attempt} (ha : s.vp.arbitrate = some a) (hactive : s.vp.busOff = false) (hfree : s.vp.wire = none) :
      RowEffect s (s.putPort { s.vp with wire := some a })
  | success {a : Attempt} (ha : s.vp.wire = some a) : RowEffect s (s.putPort (s.vp.succeed a))
  | lost {a : Attempt} (ha : s.vp.wire = some a) : RowEffect s (s.putPort (s.vp.release a))
  | failure {a : Attempt} (ha : s.vp.wire = some a) : RowEffect s (s.putPort (s.vp.fail a))
  | frame (f : CanFrame) : RowEffect s (s.receive f)
  | holdSettled (hchange : s.change = .holdSettling) (hflight : s.nothingInFlight = true) :
      RowEffect s (State.finish { s with change := .none } (okay 2))
  | configEntry (hcomes : s.entryComes = true) : RowEffect s (State.finish { s.enterConfig with change := .none } (okay 0))
  | handOver {rec : RequestRecord} {r : Result} (hready : s.mu.ready = some (rec, r)) : RowEffect s (s.handOver rec r)

/-- A command at its moment has its effect, and at another none (log entry 3). -/
theorem occurs_effect {s t u : State} {due : Bool} (h : occurs s due u = .next t) (hu : due = true → RowEffect s u) :
    RowEffect s t :=
  occurs_induction (RowEffect s) .nothing (fun _ hdue => hu hdue) h

/-- A command that samples come with acts on the part as they leave it, or not at all. -/
theorem afterLine_effect {s t : State} {line : Samples} {due : Bool} {f : State → State}
    (h : afterLine s line due f = .next t)
    (hf : ∀ l, s.lc.pass line = some l → due = true → RowEffect s (f (s.putLine l))) : RowEffect s t := by
  unfold afterLine at h
  split at h
  next l hl => exact occurs_effect h (hf l hl)
  next => cases h; exact .nothing

/-- A row of the line acts where its samples bring its event about, or not at all. -/
theorem onLine_effect {s t : State} {line : Samples} {f : State → Poll → LineEvent → Option State}
    (h : onLine s line f = .next t)
    (hf : ∀ l p e u, s.lc.pass line = some l → l.poll = some p → f (s.putLine l) p e = some u → RowEffect s u) :
    RowEffect s t := by
  unfold onLine at h
  split at h
  next => cases h; exact .nothing
  next l hl =>
    split at h
    next p e hp _ =>
      split at h
      next u hu => exact occurs_effect h fun _ => hf l p e u hl hp hu
      next => cases h; exact .nothing
    next => cases h; exact .nothing

/-- A row of a request has the effect of its frame. -/
theorem onRequest_effect {s t : State} {f : CanFrame} {row : Bool} (h : onRequest s f row = .next t) : RowEffect s t :=
  occurs_effect h fun _ => .frame f

/-- Every command has one of the effects of the rows. -/
theorem exec_effect {c : Instr} {s t : State} (h : exec c s = .next t) : RowEffect s t := by
  cases c with
  | powerOnReset straps => cases h; exact .fresh straps
  | resetNLow => exact occurs_effect h fun _ => .blank _
  | resetNRelease straps => cases h; split; exacts [.fresh straps, .nothing]
  | powerLoss => cases h; split; exacts [.nothing, .blank _]
  | cabinTimeAdvance => exact occurs_effect h fun hdue => .millisecond (by simpa using hdue)
  | slotStart line =>
    refine afterLine_effect h fun l hl hdue => .slotStart hl ?_
    simp only [Bool.and_eq_true] at hdue
    simpa [State.lineIdle] using hdue.2
  | tick10ms =>
    refine occurs_effect h fun hdue => .tick10 ?_
    simp only [Bool.and_eq_true] at hdue
    exact hdue.1
  | tick100ms =>
    refine occurs_effect h fun hdue => ?_
    simp only [Bool.and_eq_true] at hdue
    obtain ⟨⟨hpass, -⟩, htaken⟩ := hdue
    exact .tick100 hpass htaken
  | pendingTrigger p => exact occurs_effect h fun _ => .trigger p
  | stageExpiry p => exact occurs_effect h fun _ => .expiry p
  | graceDeadlineReached p =>
    refine occurs_effect h fun hdue => ?_
    simp only [Bool.and_eq_true] at hdue
    exact .deadline p hdue.1 hdue.2
  | stepAdvance line => exact afterLine_effect h fun l hl hdue => .stepAdvance hl hdue
  | pollSend line =>
    dsimp only [exec, execPollSend] at h
    refine onLine_effect h fun l p e u hl hp hu => ?_
    obtain ⟨-, ⟨⟩⟩ := Option.ite_none_right_eq_some.mp hu
    exact .pollSend hl hp
  | pollEnd line =>
    dsimp only [exec, execPollEnd] at h
    refine onLine_effect h fun l p e u hl hp hu => ?_
    obtain ⟨-, ⟨⟩⟩ := Option.ite_none_right_eq_some.mp hu
    exact .pollEnd hl hp
  | lineBusy line | noReply line | endOfFrameIdle line | receptionLimit line =>
    dsimp only [exec, execLineBusy, execNoReply, execEndOfFrameIdle, execReceptionLimit] at h
    refine onLine_effect h fun l p e u hl hp hu => ?_
    obtain ⟨-, ⟨⟩⟩ := Option.ite_none_right_eq_some.mp hu
    exact .outcome hl hp _
  | replyReceived line stop | replyByteRead line stop =>
    dsimp only [exec, execReplyReceived, execReplyByteRead] at h
    refine onLine_effect h fun l p e u hl hp hu => ?_
    obtain ⟨-, ⟨⟩⟩ := Option.ite_none_right_eq_some.mp hu
    exact .byte hl hp
  | replyStartBit line =>
    dsimp only [exec, execReplyStartBit] at h
    refine onLine_effect h fun l p e u hl hp hu => ?_
    cases e with
    | startBit c => cases hu; exact .startBit hl hp
    | _ => cases hu
  | lineLowSample line =>
    change execLineLowSample line s = _ at h
    unfold execLineLowSample at h
    split at h
    next l hl => exact occurs_effect h fun _ => .samples hl
    next => cases h; exact .nothing
  | evaluationStart =>
    refine occurs_effect h fun hdue => .evaluationStart ?_
    simp only [Bool.and_eq_true] at hdue
    exact hdue.1
  | evaluationCompletion =>
    change execEvaluationCompletion s = _ at h
    unfold execEvaluationCompletion at h
    split at h
    next => cases h; exact .nothing
    next e he =>
      refine occurs_effect h fun _ => ?_
      split
      next hchange => exact .storeReset he hchange
      next hchange => exact .completion he hchange
  | vpMsTick => exact occurs_effect h fun _ => .portTick
  | speedStale => exact occurs_effect h fun _ => .speedStale
  | statusFrameDue kind => exact occurs_effect h fun _ => .statusDue kind
  | suppressionFrameDue => exact occurs_effect h fun _ => .suppressionDue
  | busOffRecovery => exact occurs_effect h fun _ => .recovery
  | speedFrame f | powerModeFrame f => exact occurs_effect h fun _ => .frame f
  | transmitStart =>
    change execTransmitStart s = _ at h
    unfold execTransmitStart at h
    split at h
    next a ha =>
      refine occurs_effect h fun hdue => ?_
      simp only [Bool.and_eq_true, Bool.not_eq_true', Option.isNone_iff_eq_none] at hdue
      exact .transmit ha hdue.1 hdue.2
    next => cases h; exact .nothing
  | transmitSuccess =>
    change execTransmitSuccess s = _ at h
    unfold execTransmitSuccess at h
    split at h
    next a ha => exact occurs_effect h fun _ => .success ha
    next => cases h; exact .nothing
  | lostArbitration =>
    change execLostArbitration s = _ at h
    unfold execLostArbitration at h
    split at h
    next a ha => exact occurs_effect h fun _ => .lost ha
    next => cases h; exact .nothing
  | transmitFailure =>
    change execTransmitFailure s = _ at h
    unfold execTransmitFailure at h
    split at h
    next a ha => exact occurs_effect h fun _ => .failure ha
    next => cases h; exact .nothing
  | requestDiscarded | malformedRequest | readWord | writeWord | writePositionStation | writeAirbagRelevant
  | writeOverrideEnable | writeOverrideLatched | writeMasked | setModeRun | setModeHold | setModeConfig | step | reidentify
  | resetRuntime => exact onRequest_effect h
  | holdSettled =>
    refine occurs_effect h fun hdue => ?_
    simp only [Bool.and_eq_true, beq_iff_eq] at hdue
    exact .holdSettled hdue.1 hdue.2
  | configEntry => exact occurs_effect h fun hdue => .configEntry hdue
  | responseHandover =>
    change execResponseHandover s = _ at h
    unfold execResponseHandover at h
    split at h
    next rec r hready => exact occurs_effect h fun _ => .handOver hready
    next => cases h; exact .nothing

/-- A promise that does not speak of the commands that wait, and that every effect of a row keeps, is kept by every step. -/
theorem step_induction (P : State → Prop) (hpending : ∀ s q, P s → P { s with pending := q })
    (heffect : ∀ s t, RowEffect s t → P s → P t) {s t : State} (hs : P s) (h : step s = .next t) : P t := by
  unfold step at h
  split at h
  next => cases h; exact hs
  next c rest _ => exact heffect _ _ (exec_effect h) (hpending s rest hs)

/-! ## Requests -/

/-- What an accepted request makes of the part, and whether MU's work on it is a change that MC still has to complete. -/
inductive Served (s : State) : State → Work → Prop where
  | answered {w : Work} (hw : w ≠ .changing) : Served s s w
  | wrote (a : Address) (v : Word) {w : Work} (hw : w ≠ .changing) : Served s (s.writeWord a v) w
  | wroteAll (ps : List Pos) (k : Fin 4) (v : Word) {w : Work} (hw : w ≠ .changing) : Served s (s.writeAll ps k v) w
  | run {w : Work} (hw : w ≠ .changing) (hmode : s.mode ≠ .run) : Served s s.enterRun w
  | hold {w : Work} (hw : w ≠ .changing) (hmode : s.mode = .run) (hflight : s.nothingInFlight = true) : Served s s.enterHold w
  | holdSettling (hmode : s.mode = .run) : Served s { s.enterHold with change := .holdSettling } .changing
  | config {w : Work} (hw : w ≠ .changing) (hmode : s.mode ≠ .config) (hflight : s.nothingInFlight = true) :
      Served s s.enterConfig w
  | configWaiting (hmode : s.mode ≠ .config) : Served s { s with change := .configWaiting false } .changing
  | queued {st : Station} {w : Work} (hw : w ≠ .changing) (hnew : st ∉ s.ps.onDemand) (hroom : s.ps.onDemand.length < 4) :
      Served s { s with ps := { s.ps with onDemand := s.ps.onDemand ++ [st] } } w
  | reset {w : Work} (hw : w ≠ .changing) (hidle : s.we = none) : Served s s.resetRuntime.resetStore w
  | resetSettling (hbusy : s.we ≠ none) : Served s { s.resetRuntime with change := .resetSettling } .changing

theorem serveSetMode_served (s : State) (r : RequestRecord) : Served s (s.serveSetMode r).1 (s.serveSetMode r).2 := by
  unfold State.serveSetMode
  split
  next => exact .answered nofun
  next m _ =>
    split
    · exact .answered nofun
    split
    · exact .answered nofun
    next hother =>
      cases m with
      | run =>
        dsimp only [State.changeToRun]
        split
        · exact .answered nofun
        · exact .run nofun (Ne.symm hother)
      | hold =>
        have hmode (h : ¬ s.mode = .config) : s.mode = .run := by cases hm : s.mode <;> simp_all
        dsimp only [State.changeToHold]
        split
        · exact .answered nofun
        next hconfig =>
          split
          next hflight => exact .hold nofun (hmode hconfig) hflight
          next => exact .holdSettling (hmode hconfig)
      | config =>
        dsimp only [State.changeToConfig]
        split
        · exact .answered nofun
        split
        next hflight =>
          dsimp only
          exact .config nofun (Ne.symm hother) hflight
        next => exact .configWaiting (Ne.symm hother)

theorem serveWrite_served (s : State) (r : RequestRecord) : Served s (s.serveWrite r).1 (s.serveWrite r).2 := by
  unfold State.serveWrite
  dsimp only
  split
  · exact .answered nofun
  split
  · exact .answered nofun
  split
  · exact .answered nofun
  split
  · exact .answered nofun
  split
  · exact .answered nofun
  · exact .wrote _ _ nofun

theorem serveMasked_served (s : State) (r : RequestRecord) : Served s (s.serveMasked r).1 (s.serveMasked r).2 := by
  unfold State.serveMasked
  dsimp only
  split
  · exact .answered nofun
  split
  · exact .answered nofun
  split
  · exact .answered nofun
  split
  · exact .answered nofun
  split
  · exact .answered nofun
  split
  · exact .answered nofun
  split
  · exact .answered nofun
  · exact .wroteAll _ _ _ nofun

theorem serveReidentify_served (s : State) (r : RequestRecord) :
    Served s (s.serveReidentify r).1 (s.serveReidentify r).2 := by
  unfold State.serveReidentify
  dsimp only
  split
  · exact .answered nofun
  split
  · exact .answered nofun
  split
  · exact .answered nofun
  split
  · exact .answered nofun
  next hnew =>
    split
    · exact .answered nofun
    next hroom => exact .queued nofun (by simpa using hnew) (by omega)

theorem serveReset_served (s : State) (r : RequestRecord) : Served s (s.serveReset r).1 (s.serveReset r).2 := by
  unfold State.serveReset
  split
  · exact .answered nofun
  split
  · exact .answered nofun
  split
  next hidle => exact .reset nofun (by simpa [State.weIdle] using hidle)
  next hbusy => exact .resetSettling (by simpa [State.weIdle] using hbusy)

/-- Every request is served in one of these ways. -/
theorem serve_served (s : State) (r : RequestRecord) : Served s (s.serve r).1 (s.serve r).2 := by
  unfold State.serve
  split
  case h_1 => unfold State.serveRead; (repeat' split) <;> exact .answered nofun
  case h_2 => exact serveWrite_served s r
  case h_3 => exact serveMasked_served s r
  case h_4 => exact serveSetMode_served s r
  case h_5 => unfold State.serveStep; dsimp only; (repeat' split) <;> exact .answered nofun
  case h_6 => exact serveReidentify_served s r
  case h_7 => exact serveReset_served s r
  case h_8 => exact .answered nofun

/-- The vehicle inputs touch RU, OU and VP alone (R107, R138). -/
@[simp] theorem takeInputs_frame (s : State) (speed power : Option Byte) :
    (s.takeInputs speed power).power = s.power ∧
    (s.takeInputs speed power).mode = s.mode ∧
    (s.takeInputs speed power).change = s.change ∧
    (s.takeInputs speed power).tb = s.tb ∧
    (s.takeInputs speed power).ps = s.ps ∧
    (s.takeInputs speed power).lc = s.lc ∧
    (s.takeInputs speed power).sm = s.sm ∧
    (s.takeInputs speed power).ss = s.ss ∧
    (s.takeInputs speed power).we = s.we ∧
    (s.takeInputs speed power).cl = s.cl ∧
    (s.takeInputs speed power).mu = s.mu ∧
    (s.takeInputs speed power).tables = s.tables ∧
    (s.takeInputs speed power).pending = s.pending := by
  unfold State.takeInputs
  dsimp only
  (repeat' split) <;> simp

/-- A promise that the inputs, a discarded request and a served one keep is kept by a received frame. -/
theorem receive_induction (P : State → Prop) {s : State} (hs : P s)
    (hinputs : ∀ t speed power, P t → P (t.takeInputs speed power))
    (hdiscarded : s.mu.service ≠ none → P { s with mu := { s.mu with overlap := true } })
    (hserved : ∀ t w r, s.mu.service = none → Served s t w → P (t.serving r w)) (f : CanFrame) : P (s.receive f) := by
  unfold State.receive State.thenInputs State.takeRequest State.handRequest State.accept
  refine hinputs _ _ _ ?_
  repeat' split
  next v hv => exact hdiscarded (by simp [hv])
  next hidle _ => exact hserved s _ _ hidle (.answered nofun)
  next hidle _ => exact hserved _ _ _ hidle (serve_served s _)
  next => exact hs

end Sys2Proof.Machine
end

section
/-! The Vehicle Port's slot, queue and counts: what keeps them within their bounds (R139, R141 to R145, R148). -/

namespace Sys2Proof.Machine

/-- The Event Queue and the counts of VP are within their bounds (R139, R141 to R145, R148). -/
def VehiclePort.Bounded (v : VehiclePort) : Prop :=
  (v.eventQueue.length ≤ 16 ∧ (v.eventSlot = none → v.eventQueue = [])) ∧
  v.rolling ≤ 14 ∧ v.failures ≤ 32 ∧ v.staleness ≤ 1000 ∧
  v.suppression.elapsed ≤ 2000 ∧ v.cls.elapsed ≤ 2000 ∧ v.belt.elapsed ≤ 2000 ∧ v.quality.elapsed ≤ 2000 ∧
  (v.busOff = true → v.wire = none)

theorem bounded_iff (s : State) : s.vp.Bounded ↔ EventsSound s ∧ PortSound s := Iff.rfl

namespace VehiclePort

/-! ## The operations of VP -/

/-- A refill takes the queue's head into an empty slot, so it may even begin with an empty slot before a waiting queue. -/
theorem bounded_refill {v : VehiclePort} (hlen : v.eventQueue.length ≤ 17)
    (hfull : v.eventSlot ≠ none → v.eventQueue.length ≤ 16)
    (h : ({ v with eventSlot := none, eventQueue := [] } : VehiclePort).Bounded) : v.refill.Bounded := by
  obtain ⟨-, hcounts⟩ := h
  unfold refill
  split
  next r rest hs hq =>
    rw [hq] at hlen
    exact ⟨⟨Nat.le_of_succ_le_succ hlen, by simp⟩, hcounts⟩
  next hne =>
    refine ⟨?_, hcounts⟩
    cases hs : v.eventSlot with
    | some r => exact ⟨hfull (by simp [hs]), by simp⟩
    | none =>
      cases hq : v.eventQueue with
      | nil => simp
      | cons r rest => exact absurd hq (hne r rest hs)

/-- Emptying the slot and refilling it keeps the bounds (R145). -/
theorem bounded_emptySlot {v : VehiclePort} (h : v.Bounded) :
    VehiclePort.Bounded (VehiclePort.refill { v with eventSlot := none }) := by
  obtain ⟨⟨hlen, -⟩, hcounts⟩ := h
  exact bounded_refill (by dsimp only; omega) (by simp) ⟨by simp, hcounts⟩

/-- An event keeps the bounds: a seventeenth record of the queue is dropped (R144). -/
@[simp] theorem bounded_enqueue {v : VehiclePort} (h : v.Bounded) (r : EventRecord) : (v.enqueue r).Bounded := by
  obtain ⟨⟨hlen, hslot⟩, hcounts⟩ := h
  unfold enqueue
  split
  next hroom => exact bounded_refill (by simp; omega) (by intro; simp; omega) ⟨by simp, hcounts⟩
  next hfull =>
    refine ⟨⟨by simpa using hlen, fun hs => ?_⟩, hcounts⟩
    simp [hslot hs] at hfull

/-- The four reports are handed new contents, their elapsed counts stand, and nothing else of VP changes. -/
theorem bounded_handed {v w : VehiclePort} (h : v.Bounded)
    (hw : w = { v with suppression := w.suppression, cls := w.cls, belt := w.belt, quality := w.quality })
    (hsupp : w.suppression.elapsed = v.suppression.elapsed) (hcls : w.cls.elapsed = v.cls.elapsed)
    (hbelt : w.belt.elapsed = v.belt.elapsed) (hquality : w.quality.elapsed = v.quality.elapsed) : w.Bounded := by
  obtain ⟨hevents, hrolling, hfailures, hstale, h1, h2, h3, h4, hwire⟩ := h
  rw [hw]
  exact ⟨hevents, hrolling, hfailures, hstale, hsupp ▸ h1, hcls ▸ h2, hbelt ▸ h3, hquality ▸ h4, hwire⟩

@[simp] theorem bounded_tick {v : VehiclePort} (h : v.Bounded) (period : Nat) : (v.tick period).Bounded := by
  obtain ⟨hevents, hrolling, hfailures, -, -, -, -, -, hwire⟩ := h
  refine ⟨hevents, hrolling, hfailures, ?_, ?_, ?_, ?_, ?_, hwire⟩ <;> simp [tick]

/-- A speed that a frame brings ends the staleness (R138, R139). -/
theorem bounded_storeSpeed {v : VehiclePort} (h : v.Bounded) (b : Byte) :
    VehiclePort.Bounded { v with speed := b, staleness := 0 } := by
  obtain ⟨hevents, hrolling, hfailures, -, hcounts⟩ := h
  exact ⟨hevents, hrolling, hfailures, by simp, hcounts⟩

@[simp] theorem bounded_makeStatusPending {v : VehiclePort} (h : v.Bounded) (kind : StatusKind) :
    (v.makeStatusPending kind).Bounded := by
  cases kind <;> exact bounded_handed h rfl rfl rfl rfl rfl

/-- A transmitted frame starts its report's elapsed count anew, moves the rolling counter on, or empties its slot. -/
theorem bounded_settleSlot {v : VehiclePort} (h : v.Bounded) (a : Attempt) : (v.settleSlot a).Bounded := by
  unfold settleSlot
  split
  case h_3 => exact bounded_emptySlot h
  all_goals
    obtain ⟨hevents, hrolling, hfailures, hstale, h1, h2, h3, h4, hwire⟩ := h
    refine ⟨hevents, ?_, hfailures, hstale, ?_, ?_, ?_, ?_, hwire⟩
  case h_1.refine_1 =>
    simp only [rolledOn]
    split
    · exact hrolling
    · split <;> omega
  all_goals simp_all [Report.sent]

@[simp] theorem bounded_succeed {v : VehiclePort} (h : v.Bounded) (a : Attempt) : (v.succeed a).Bounded := by
  obtain ⟨hevents, hrolling, -, hcounts⟩ := h
  obtain ⟨hstale, h1, h2, h3, h4, -⟩ := hcounts
  exact bounded_settleSlot (v := { v with wire := none, failures := 0 })
    ⟨hevents, hrolling, by simp, hstale, h1, h2, h3, h4, by simp⟩ a

/-- An attempt that ends without success leaves the wire. -/
theorem release_wire (v : VehiclePort) (a : Attempt) : (v.release a).wire = none := by
  unfold release
  split
  · rw [refill_does]
  · rfl

@[simp] theorem bounded_release {v : VehiclePort} (h : v.Bounded) (a : Attempt) : (v.release a).Bounded := by
  have hfree : VehiclePort.Bounded { v with wire := none } := by
    obtain ⟨hevents, hrolling, hfailures, hstale, h1, h2, h3, h4, -⟩ := h
    exact ⟨hevents, hrolling, hfailures, hstale, h1, h2, h3, h4, by simp⟩
  unfold release
  split
  · exact bounded_emptySlot hfree
  · exact hfree

@[simp] theorem bounded_fail {v : VehiclePort} (h : v.Bounded) (a : Attempt) : (v.fail a).Bounded := by
  obtain ⟨hevents, hrolling, -, hstale, h1, h2, h3, h4, -⟩ := bounded_release h a
  unfold fail
  dsimp only
  split
  next hlt => exact ⟨hevents, hrolling, by dsimp only; omega, hstale, h1, h2, h3, h4, fun _ => release_wire v a⟩
  next => exact ⟨hevents, hrolling, by simp, hstale, h1, h2, h3, h4, fun _ => release_wire v a⟩

@[simp] theorem bounded_resetRuntime {v : VehiclePort} (h : v.Bounded) : v.resetRuntime.Bounded := by
  obtain ⟨-, -, hfailures, hstale, h1, h2, h3, h4, hwire⟩ := h
  exact ⟨by simp [resetRuntime], by simp [resetRuntime], hfailures, hstale, h1, h2, h3, h4,
    fun hoff => by simp [resetRuntime, hwire hoff]⟩

end VehiclePort

/-! ## The operations of the other blocks -/

@[simp] theorem putPort_vp (s : State) (v : VehiclePort) : (s.putPort v).vp = v := rfl

/-- What every step of a run keeps in bounds, the run keeps in bounds. -/
theorem bounded_forEach {α : Type} {xs : List α} {f : α → State → State} {s : State} (h : s.vp.Bounded)
    (hf : ∀ x t, t.vp.Bounded → (f x t).vp.Bounded) : (forEach xs f s).vp.Bounded :=
  forEach_induction (fun t => t.vp.Bounded) xs f s h hf

section
variable {s : State} (h : s.vp.Bounded)
include h

@[simp] theorem bounded_queueEvent (k : EventKind) (a b c : Byte) : (s.queueEvent k a b c).vp.Bounded :=
  VehiclePort.bounded_enqueue h _

@[simp] theorem bounded_stationEvent (k : EventKind) (st : Station) (a b : Byte) : (s.stationEvent k st a b).vp.Bounded :=
  bounded_queueEvent h ..

@[simp] theorem bounded_positionEvent (k : EventKind) (p : Pos) (a b : Byte) : (s.positionEvent k p a b).vp.Bounded :=
  bounded_queueEvent h ..

@[simp] theorem bounded_enterMode (m : Mode) : (s.enterMode m).vp.Bounded :=
  bounded_queueEvent (s := { s with mode := m }) h ..

@[simp] theorem bounded_handClass (p : Pos) (c : Cls) : (s.handClass p c).vp.Bounded :=
  VehiclePort.bounded_handed h rfl rfl (by simp [State.handClass]) rfl rfl

@[simp] theorem bounded_handBelt (p : Pos) (b : BeltContent) : (s.handBelt p b).vp.Bounded :=
  VehiclePort.bounded_handed h rfl rfl rfl (by simp [State.handBelt]) rfl

@[simp] theorem bounded_handQuality (p : Pos) (q : Quality) : (s.handQuality p q).vp.Bounded :=
  VehiclePort.bounded_handed h rfl rfl rfl rfl (by simp [State.handQuality])

@[simp] theorem bounded_giveSuppression : s.giveSuppression.vp.Bounded :=
  VehiclePort.bounded_handed h rfl (by simp [State.giveSuppression]) rfl rfl rfl

@[simp] theorem bounded_handResetContents : s.handResetContents.vp.Bounded := by
  refine VehiclePort.bounded_handed h ?_ ?_ ?_ ?_ ?_ <;> simp [State.handResetContents]

@[simp] theorem bounded_setQuality (p : Pos) (f : Quality → Quality) : (s.setQuality p f).vp.Bounded := by
  simp [State.setQuality, h]

/-! ### Reminders -/

@[simp] theorem bounded_putRecord (p : Pos) (r : ReminderRecord) : (s.putRecord p r).vp.Bounded := by
  unfold State.putRecord State.giveBelt
  dsimp only
  split <;> simp [h]

@[simp] theorem bounded_putBuckle (p : Pos) (b : Buckle) : (s.putBuckle p b).vp.Bounded := by
  unfold State.putBuckle State.giveBelt
  dsimp only
  split <;> simp [h]

@[simp] theorem bounded_moveToStage1 (p : Pos) : (s.moveToStage1 p).vp.Bounded := bounded_putRecord h ..

@[simp] theorem bounded_moveToStage2 (p : Pos) : (s.moveToStage2 p).vp.Bounded := bounded_putRecord h ..

@[simp] theorem bounded_triggerTest (p : Pos) : (s.triggerTest p).vp.Bounded := by
  unfold State.triggerTest; split <;> simp [h]

@[simp] theorem bounded_deadlineTest (p : Pos) : (s.deadlineTest p).vp.Bounded := by
  unfold State.deadlineTest; split <;> simp [h]

@[simp] theorem bounded_enterPending (p : Pos) (r : ReminderRecord) : (s.enterPending p r).vp.Bounded :=
  bounded_deadlineTest (bounded_triggerTest (bounded_putRecord h ..) _) _

@[simp] theorem bounded_expireStage (p : Pos) : (s.expireStage p).vp.Bounded := by
  unfold State.expireStage; split <;> simp [h]

@[simp] theorem bounded_takeTrigger (p : Pos) : (s.takeTrigger p).vp.Bounded := by
  unfold State.takeTrigger; split <;> simp [h]

@[simp] theorem bounded_takeExpiry (p : Pos) : (s.takeExpiry p).vp.Bounded := by
  unfold State.takeExpiry; split <;> simp [h]

@[simp] theorem bounded_takeDueMoves : s.takeDueMoves.vp.Bounded :=
  bounded_forEach h fun _ _ ht => by simp [ht]

@[simp] theorem bounded_latch (p : Pos) : (s.latch p).vp.Bounded := by
  unfold State.latch; dsimp only; split <;> simp [h]

@[simp] theorem bounded_unlatch (p : Pos) : (s.unlatch p).vp.Bounded := by
  unfold State.unlatch; dsimp only; (repeat' split) <;> simp [h]

@[simp] theorem bounded_buckleReading (p : Pos) (x : Reading) : (s.buckleReading p x).vp.Bounded := by
  unfold State.buckleReading; dsimp only; (repeat' split) <;> simp [h]

@[simp] theorem bounded_resetBuckle (p : Pos) : (s.resetBuckle p).vp.Bounded := bounded_putBuckle h ..

@[simp] theorem bounded_becomeApplicable (p : Pos) : (s.becomeApplicable p).vp.Bounded := by
  unfold State.becomeApplicable; dsimp only; split <;> simp [h]

@[simp] theorem bounded_reminderUnknown (p : Pos) : (s.reminderUnknown p).vp.Bounded := by
  unfold State.reminderUnknown; dsimp only; split <;> simp [h]

@[simp] theorem bounded_resume (p : Pos) : (s.resume p).vp.Bounded := by
  unfold State.resume; dsimp only; split <;> simp [h]

@[simp] theorem bounded_reminderClass (p : Pos) (a b : Cls) : (s.reminderClass p a b).vp.Bounded := by
  unfold State.reminderClass; dsimp only; (repeat' split) <;> simp [h]

@[simp] theorem bounded_allInactive : s.allInactive.vp.Bounded := bounded_forEach h fun _ _ ht => by simp [ht]

@[simp] theorem bounded_resetBuckles : s.resetBuckles.vp.Bounded := bounded_forEach h fun _ _ ht => by simp [ht]

@[simp] theorem bounded_ignitionComesOn : s.ignitionComesOn.vp.Bounded :=
  bounded_forEach h fun _ _ ht => by split <;> simp [ht]

@[simp] theorem bounded_ignitionGoesOff : s.ignitionGoesOff.vp.Bounded := bounded_allInactive (s := { s with ru := _ }) h

/-! ### Classes, samples and evaluations -/

@[simp] theorem bounded_setClass (p : Pos) (c : Cls) : (s.setClass p c).vp.Bounded := by
  have hgiven (t : State) (ht : t.vp.Bounded) (old : Cls) : ((t.reminderClass p old c).handClass p c).vp.Bounded :=
    bounded_handClass (bounded_reminderClass ht ..) ..
  unfold State.setClass
  dsimp only
  (repeat' split) <;> simp [h, hgiven]

@[simp] theorem bounded_updateRough (p : Pos) : (s.updateRough p).vp.Bounded := bounded_setQuality h ..

@[simp] theorem bounded_classifyDisturbed (p : Pos) : (s.classifyDisturbed p).vp.Bounded := h

@[simp] theorem bounded_classifyClean (p : Pos) (raw : Cls) (c : Nat) : (s.classifyClean p raw c).vp.Bounded := by
  unfold State.classifyClean; dsimp only; split <;> simp [h]

@[simp] theorem bounded_classify (p : Pos) (b : Thresholds) (w : WindowResult) : (s.classify p b w).vp.Bounded := by
  unfold State.classify; dsimp only; split <;> simp [h]

@[simp] theorem bounded_flushClass (p : Pos) : (s.flushClass p).vp.Bounded := by
  simp [State.flushClass, h]

@[simp] theorem bounded_fittingChange (p : Pos) (b : Bool) : (s.fittingChange p b).vp.Bounded := by
  unfold State.fittingChange; (repeat' split) <;> simp [h]

@[simp] theorem bounded_dropSample (p : Pos) : (s.dropSample p).vp.Bounded := by
  unfold State.dropSample; dsimp only; split <;> simp [h]

@[simp] theorem bounded_arrive (p : Pos) (x : PlaceSample) : (s.arrive p x).vp.Bounded := by
  unfold State.arrive; dsimp only; split <;> simp [h]

@[simp] theorem bounded_flush (p : Pos) (b : Bool) : (s.flush p b).vp.Bounded := by
  unfold State.flush; dsimp only; split <;> simp [h]

@[simp] theorem bounded_flushAll : s.flushAll.vp.Bounded := bounded_forEach h fun _ _ ht => by simp [ht]

@[simp] theorem bounded_clearLosses : s.clearLosses.vp.Bounded := bounded_forEach h fun _ _ ht => by simp [ht]

@[simp] theorem bounded_resetStore : s.resetStore.vp.Bounded := bounded_forEach h fun _ _ ht => by simp [ht]

@[simp] theorem bounded_settleLoss (p : Pos) : (s.settleLoss p).vp.Bounded := by
  unfold State.settleLoss; dsimp only; split <;> simp [h]

@[simp] theorem bounded_validCompletion (e : Evaluation) : (s.validCompletion e).vp.Bounded := by
  simp [State.validCompletion, h]

@[simp] theorem bounded_completeEvaluation (e : Evaluation) : (s.completeEvaluation e).vp.Bounded := by
  unfold State.completeEvaluation; dsimp only; split <;> simp [h]

/-! ### Stations and the outcome of a poll -/

@[simp] theorem bounded_lookupCalibration (st : Station) : (s.lookupCalibration st).vp.Bounded :=
  bounded_forEach (by simpa using h) fun _ _ ht => by simp [ht]

@[simp] theorem bounded_reportCalMissing (st : Station) : (s.reportCalMissing st).vp.Bounded := by
  unfold State.reportCalMissing; split <;> simp [h]

@[simp] theorem bounded_checkPlace (st : Station) (p : Pos) : (s.checkPlace st p).vp.Bounded := by
  unfold State.checkPlace; dsimp only; (repeat' split) <;> simp [h]

@[simp] theorem bounded_placeCheck (st : Station) : (s.placeCheck st).vp.Bounded :=
  bounded_forEach h fun _ _ ht => by simp [ht]

@[simp] theorem bounded_reviewDefaultCal (st : Station) : (s.reviewDefaultCal st).vp.Bounded :=
  bounded_forEach h fun _ _ ht => by simp [ht]

@[simp] theorem bounded_activationEvent (st : Station) (old : Node) (a : Byte) (n : Nat) :
    (s.activationEvent st old a n).vp.Bounded := by
  unfold State.activationEvent; (repeat' split) <;> simp [h]

@[simp] theorem bounded_activate (st : Station) (a : Byte) (n l : Nat) : (s.activate st a n l).vp.Bounded :=
  bounded_reviewDefaultCal (bounded_placeCheck (bounded_reportCalMissing (bounded_activationEvent
    (bounded_lookupCalibration (by simpa using h) _) ..) _) _) _

@[simp] theorem bounded_flushStation (st : Station) : (s.flushStation st).vp.Bounded :=
  bounded_forEach h fun _ _ ht => by simp [ht]

@[simp] theorem bounded_seatChange (st : Station) (a : Byte) (n l : Nat) : (s.seatChange st a n l).vp.Bounded :=
  bounded_reviewDefaultCal (bounded_placeCheck (bounded_reportCalMissing (bounded_stationEvent
    (bounded_lookupCalibration (by simp [h]) _) ..) _) _) _

@[simp] theorem bounded_linkLoss (st : Station) : (s.linkLoss st).vp.Bounded :=
  bounded_stationEvent (bounded_forEach (by simp [h]) fun _ _ ht => by simp [ht]) ..

@[simp] theorem bounded_miss (st : Station) : (s.miss st).vp.Bounded := by
  unfold State.miss; dsimp only; split <;> simp [h]

@[simp] theorem bounded_noteHop (st : Station) (l : Nat) : (s.noteHop st l).vp.Bounded := by
  unfold State.noteHop; dsimp only; split <;> simp [h]

@[simp] theorem bounded_deliverSamples (st : Station) (xs : List PlaceSample) : (s.deliverSamples st xs).vp.Bounded :=
  bounded_forEach h fun _ _ ht => by split <;> simp [ht]

@[simp] theorem bounded_identifyActive (st : Station) (a : Byte) (n l : Nat) : (s.identifyActive st a n l).vp.Bounded := by
  unfold State.identifyActive; dsimp only; split <;> simp [h]

@[simp] theorem bounded_sampleActive (st : Station) (a : Byte) (n l : Nat) (xs : List PlaceSample) :
    (s.sampleActive st a n l xs).vp.Bounded := by
  unfold State.sampleActive; dsimp only; (repeat' split) <;> simp [h]

@[simp] theorem bounded_takeOutcome (st : Station) (k : PollKind) (l : Nat) (o : ReplyOutcome) :
    (s.takeOutcome st k l o).vp.Bounded := by
  unfold State.takeOutcome; (repeat' split) <;> simp [h]

@[simp] theorem bounded_deliver (p : Poll) (o : ReplyOutcome) : (s.deliver p o).vp.Bounded :=
  bounded_takeOutcome (s := { s with lc := { s.lc with poll := none } }) h ..

@[simp] theorem bounded_takeStartBit (p : Poll) (c : Nat) : (s.takeStartBit p c).vp.Bounded := by
  unfold State.takeStartBit; dsimp only; (repeat' split) <;> simp [h]

@[simp] theorem bounded_readByte (p : Poll) : (s.readByte p).vp.Bounded := by
  unfold State.readByte; dsimp only; (repeat' split) <;> simp [h]

@[simp] theorem bounded_runLookup (st : Station) : (s.runLookup st).vp.Bounded := by
  unfold State.runLookup; split <;> simp [h]

@[simp] theorem bounded_runLinkDown (p : Pos) : (s.runLinkDown p).vp.Bounded := by
  unfold State.runLinkDown; (repeat' split) <;> simp [h]

@[simp] theorem bounded_stationsEnterRun : s.stationsEnterRun.vp.Bounded :=
  bounded_forEach
    (bounded_forEach (bounded_forEach h fun _ _ ht => by simp [ht]) fun _ _ ht => by split <;> simp [ht])
    fun _ _ ht => by simp [ht]

/-! ### Steps, modes and requests -/

@[simp] theorem bounded_testDeadlines : s.testDeadlines.vp.Bounded := by
  unfold State.testDeadlines
  split
  · simpa using bounded_forEach h fun _ _ ht => by simp [ht]
  · exact h

@[simp] theorem bounded_handTicks100 : s.handTicks100.vp.Bounded := by
  unfold State.handTicks100
  exact List.foldlRecOn (motive := fun t : State => t.vp.Bounded) _ _ h fun t ht v _ => bounded_takeDueMoves (by simpa using ht)

@[simp] theorem bounded_endStep : s.endStep.vp.Bounded := by
  have hmoves : s.testDeadlines.takeDueMoves.handTicks10.vp.Bounded := by
    simpa using bounded_takeDueMoves (bounded_testDeadlines h)
  unfold State.endStep
  simpa using bounded_handTicks100 hmoves

@[simp] theorem bounded_goOn : s.goOn.vp.Bounded := by
  unfold State.goOn
  dsimp only
  (repeat' split) <;> simp [h]

@[simp] theorem bounded_takeTick10 : s.takeTick10.vp.Bounded := by
  unfold State.takeTick10
  dsimp only
  (repeat' split) <;> simp [h]

@[simp] theorem bounded_takeTick100 : s.takeTick100.vp.Bounded := by
  unfold State.takeTick100
  dsimp only
  (repeat' split) <;> simp [h]

@[simp] theorem bounded_enterHold : s.enterHold.vp.Bounded := by
  simp [State.enterHold, h]

@[simp] theorem bounded_enterConfig : s.enterConfig.vp.Bounded :=
  bounded_flushAll (bounded_resetBuckles (bounded_allInactive (by simp [h])))

@[simp] theorem bounded_enterRun : s.enterRun.vp.Bounded := by
  unfold State.enterRun
  dsimp only
  exact bounded_stationsEnterRun (bounded_clearLosses (bounded_flushAll (bounded_enterMode h .run)))

@[simp] theorem bounded_runtimeReset : s.resetRuntime.vp.Bounded :=
  bounded_enterMode (bounded_giveSuppression (bounded_handResetContents (VehiclePort.bounded_resetRuntime h))) _

@[simp] theorem bounded_handOver (rec : RequestRecord) (r : Result) : (s.handOver rec r).vp.Bounded := h

@[simp] theorem bounded_settleReset : s.settleReset.vp.Bounded := by
  unfold State.settleReset
  rw [(finish_frame ..).2.2.2.2.2.2.2.2.2.2.2.2.1]
  exact bounded_resetStore (s := { s with we := none, change := .none }) h

@[simp] theorem bounded_storeWord (a : Address) (v : Word) : (s.storeWord a v).vp.Bounded := by
  simp [h]

@[simp] theorem bounded_writeEffects (t : State) (a : Address) : (s.writeEffects t a).vp.Bounded := by
  unfold State.writeEffects
  split <;> simp [h]

@[simp] theorem bounded_writeWord (a : Address) (v : Word) : (s.writeWord a v).vp.Bounded := by
  simp [State.writeWord, h]

@[simp] theorem bounded_writeAll (ps : List Pos) (w : Fin 4) (v : Word) : (s.writeAll ps w v).vp.Bounded :=
  bounded_forEach (bounded_forEach h fun _ _ ht => by simp [ht]) fun _ _ ht => by simp [ht]

@[simp] theorem bounded_handStale : s.handStale.vp.Bounded := by
  unfold State.handStale
  simp only [speedChange_frame, putPort_vp]
  exact h

@[simp] theorem bounded_takeSpeed (b : Byte) : (s.takeSpeed b).vp.Bounded := by
  have hfresh : (if s.vp.staleDue = true then s.handStale else s).vp.Bounded := by split <;> simp [h]
  unfold State.takeSpeed
  dsimp only
  split <;> simpa using VehiclePort.bounded_storeSpeed hfresh b

@[simp] theorem bounded_takePowerMode (m : PowerMode) : (s.takePowerMode m).vp.Bounded := by
  have hstored : (s.putPort { s.vp with powerMode := m }).vp.Bounded := h
  unfold State.takePowerMode
  dsimp only
  repeat' split
  · exact hstored
  · exact bounded_ignitionComesOn hstored
  · exact bounded_ignitionGoesOff hstored

@[simp] theorem bounded_takeInputs (speed power : Option Byte) : (s.takeInputs speed power).vp.Bounded := by
  unfold State.takeInputs
  dsimp only
  (repeat' split) <;> simp [h]

end

/-- Whatever a request asks for, VP stays within its bounds. -/
theorem Served.keeps_bounded {s t : State} {w : Work} (hserved : Served s t w) (h : s.vp.Bounded) : t.vp.Bounded := by
  cases hserved with
  | answered | configWaiting | queued => exact h
  | wrote a v => exact bounded_writeWord h a v
  | wroteAll ps k v => exact bounded_writeAll h ps k v
  | run => exact bounded_enterRun h
  | hold => exact bounded_enterHold h
  | holdSettling => simpa using bounded_enterHold h
  | config => exact bounded_enterConfig h
  | reset => exact bounded_resetStore (bounded_runtimeReset h)
  | resetSettling => simpa using bounded_runtimeReset h

/-- Every effect of a row keeps VP's slot, queue and counts within their bounds. -/
theorem RowEffect.keeps_bounded {s t : State} (heffect : RowEffect s t) (h : s.vp.Bounded) : t.vp.Bounded := by
  cases heffect with
  | nothing => exact h
  | fresh straps => simp [State.fresh, VehiclePort.Bounded]
  | blank power => simp [State.blank, VehiclePort.Bounded]
  | slotStart hpass hidle => simpa using h
  | millisecond hmode => exact h
  | samples hpass => exact h
  | evaluationStart hmay => simpa using h
  | completion he hchange => simpa using bounded_completeEvaluation h _
  | portTick => exact VehiclePort.bounded_tick h _
  | statusDue kind => exact VehiclePort.bounded_makeStatusPending h kind
  | suppressionDue => exact VehiclePort.bounded_handed h rfl rfl rfl rfl rfl
  | recovery =>
    obtain ⟨hevents, hrolling, -, hstale, h1, h2, h3, h4, -⟩ := h
    exact bounded_queueEvent (s := s.putPort _)
      (by exact ⟨hevents, hrolling, by simp, hstale, h1, h2, h3, h4, by simp⟩) ..
  | transmit ha hactive hfree =>
    obtain ⟨hevents, hrolling, hfailures, hstale, h1, h2, h3, h4, -⟩ := h
    exact ⟨hevents, hrolling, hfailures, hstale, h1, h2, h3, h4, by simp [hactive]⟩
  | success ha => exact VehiclePort.bounded_succeed h _
  | lost ha => exact VehiclePort.bounded_release h _
  | failure ha => exact VehiclePort.bounded_fail h _
  | frame f =>
    exact receive_induction (fun t => t.vp.Bounded) h (fun _ _ _ ht => bounded_takeInputs ht ..) (fun _ => h)
      (fun _ _ _ _ hserved => hserved.keeps_bounded h) f
  | holdSettled => simpa using h
  | configEntry => simpa using bounded_enterConfig h
  | _ => simp [h]

end Sys2Proof.Machine
end

section
/-! The Evaluation Queue: which position stands in it, and which one is under evaluation (R55 to R62). -/

namespace Sys2Proof.Machine

/-- The Evaluation Queue and the marks of the chains agree, with `w` the position that WE holds (R56). -/
def SampleStore.Queued (ss : SampleStore) (w : Option Pos) : Prop :=
  ss.evalQueue.Nodup ∧ ss.evalQueue.length ≤ 16 ∧
  ∀ p : Pos, (ss.chains[p].underEval = true ↔ w = some p) ∧ (ss.chains[p].underEval = true → p ∉ ss.evalQueue) ∧
    (ss.chains[p].scheduled = true ↔ p ∈ ss.evalQueue ∨ ss.chains[p].underEval = true)

theorem queued_iff (s : State) : s.ss.Queued (s.we.map Evaluation.pos) ↔ EvaluationQueueSound s := Iff.rfl

/-- The queue and the two evaluation marks of every chain stand (R56). -/
def SampleStore.SameMarks (ss tt : SampleStore) : Prop :=
  tt.evalQueue = ss.evalQueue ∧ ∀ p : Pos, tt.chains[p].scheduled = ss.chains[p].scheduled ∧
    tt.chains[p].underEval = ss.chains[p].underEval

namespace SampleStore
variable {ss tt : SampleStore} {w : Option Pos}

/-! ## The operations of SS -/

/-- A queue without repetition holds at most the sixteen positions. -/
theorem Queued.of_marks (hnodup : ss.evalQueue.Nodup)
    (hmarks : ∀ p : Pos, (ss.chains[p].underEval = true ↔ w = some p) ∧ (ss.chains[p].underEval = true → p ∉ ss.evalQueue) ∧
      (ss.chains[p].scheduled = true ↔ p ∈ ss.evalQueue ∨ ss.chains[p].underEval = true)) : ss.Queued w :=
  ⟨hnodup, by simpa using hnodup.length_le_card, hmarks⟩

theorem Queued.sameMarks (h : ss.Queued w) (hsame : ss.SameMarks tt) : tt.Queued w := by
  obtain ⟨hqueue, hchains⟩ := hsame
  obtain ⟨hnodup, -, hmarks⟩ := h
  refine .of_marks (by rwa [hqueue]) fun p => ?_
  obtain ⟨hscheduled, hunder⟩ := hchains p
  rw [hscheduled, hunder, hqueue]
  exact hmarks p

/-- One chain changes, with its marks kept. -/
theorem sameMarks_of_chain {p : Pos} (hqueue : tt.evalQueue = ss.evalQueue)
    (hp : tt.chains[p].scheduled = ss.chains[p].scheduled ∧ tt.chains[p].underEval = ss.chains[p].underEval)
    (hothers : ∀ q : Pos, q ≠ p → tt.chains[q] = ss.chains[q]) : ss.SameMarks tt := by
  refine ⟨hqueue, fun q => ?_⟩
  by_cases hq : q = p
  · rw [hq]; exact hp
  · rw [hothers q hq]; exact ⟨rfl, rfl⟩

theorem sameMarks_returnHead (ss : SampleStore) (p : Pos) : ss.SameMarks (ss.returnHead p) := by
  obtain ⟨-, -, hqueue, hp, hothers⟩ := ss.returnHead_does p
  exact sameMarks_of_chain hqueue (by rw [hp]; exact ⟨rfl, rfl⟩) hothers

theorem sameMarks_returnOldest (ss : SampleStore) (p : Pos) (n : Nat) : ss.SameMarks (ss.returnOldest p n) := by
  obtain ⟨-, -, hqueue, hp, hothers⟩ := ss.returnOldest_does p n
  exact sameMarks_of_chain hqueue (by rw [hp]; exact ⟨rfl, rfl⟩) hothers

theorem sameMarks_store (ss : SampleStore) (p : Pos) (x : PlaceSample) (now : Time) : ss.SameMarks (ss.store p x now) := by
  obtain ⟨-, -, hqueue, hp, hothers, -⟩ := ss.store_does p x now
  exact sameMarks_of_chain hqueue (by rw [hp]; exact ⟨rfl, rfl⟩) hothers

/-- The loss flag is no evaluation mark. -/
theorem sameMarks_loss (ss : SampleStore) (p : Pos) (b : Bool) :
    ss.SameMarks { ss with chains := upd ss.chains p fun c => { c with loss := b } } :=
  sameMarks_of_chain (p := p) rfl (by simp) fun q hq => upd_elsewhere _ _ _ _ (Ne.symm hq)

/-- The scheduling test queues a position that neither waits nor is under evaluation (R55). -/
theorem Queued.schedule (h : ss.Queued w) (p : Pos) (n : Nat) : (ss.schedule p n).Queued w := by
  rw [schedule_does]
  split
  case isFalse => exact h
  case isTrue hwaits =>
    obtain ⟨hnodup, -, hmarks⟩ := h
    obtain ⟨-, -, hscheduled⟩ := hmarks p
    have hfree : p ∉ ss.evalQueue ∧ ss.chains[p].underEval = false := by
      rw [hwaits.2] at hscheduled
      simpa using hscheduled
    refine .of_marks (by simpa using hnodup.concat hfree.1) fun q => ?_
    by_cases hq : q = p
    · subst hq
      have hunder := (hmarks q).1
      simp_all
    · have hne : ¬ p.val = q.val := fun e => hq (Fin.ext e.symm)
      simpa [Vector.getElem_set, hne, hq] using hmarks q

/-- A flush takes a position that only waits out of the queue (R62). -/
theorem Queued.flush (h : ss.Queued w) (p : Pos) : (ss.flush p).Queued w := by
  obtain ⟨hp, -, hqueue, hothers⟩ := ss.flush_does p
  obtain ⟨hnodup, -, hmarks⟩ := h
  obtain ⟨hunder, hout, hscheduled⟩ := hmarks p
  refine .of_marks ?_ fun q => ?_
  · rw [hqueue]
    split
    · exact hnodup.filter _
    · exact hnodup
  · by_cases hq : q = p
    · subst hq
      have hgone : q ∉ (ss.flush q).evalQueue := by
        rw [hqueue]
        split
        next => simp
        next hstays =>
          intro hmem
          rw [hscheduled.mpr (.inl hmem), Bool.true_and, Bool.not_eq_true', Bool.not_eq_false] at hstays
          exact hout hstays hmem
      rw [hp]
      refine ⟨hunder, fun _ => hgone, ?_⟩
      simpa [hgone] using fun hu => hscheduled.mpr (.inr hu)
    · rw [hqueue, hothers q hq]
      split
      · simpa [List.mem_filter, hq] using hmarks q
      · exact hmarks q

/-- The completion of an evaluation clears both marks of its position (R61). -/
theorem Queued.clearFlags {p : Pos} (h : ss.Queued (some p)) : (ss.clearFlags p).Queued none := by
  obtain ⟨hnodup, -, hmarks⟩ := h
  refine .of_marks hnodup fun q => ?_
  obtain ⟨hunder, hout, hscheduled⟩ := hmarks q
  by_cases hq : q = p
  · subst hq
    simpa [SampleStore.clearFlags] using hout (hunder.mpr rfl)
  · have hne : ¬ p.val = q.val := fun e => hq (Fin.ext e.symm)
    have hidle : ss.chains[q].underEval = false := by
      rw [← Bool.not_eq_true, hunder]
      simpa using fun e => hq e.symm
    simpa [SampleStore.clearFlags, hne, show ss.chains[q.val].underEval = false from hidle] using hscheduled

/-- SS at its reset state has no position queued (R64). -/
theorem queued_clear (ss : SampleStore) : ss.clear.Queued none :=
  .of_marks (by simp [clear]) fun p => by simp [clear]

end SampleStore

/-! ## The operations of the other blocks -/

theorem queued_forEach {α : Type} {w : Option Pos} {xs : List α} {f : α → State → State} {s : State} (h : s.ss.Queued w)
    (hf : ∀ x t, t.ss.Queued w → (f x t).ss.Queued w) : (forEach xs f s).ss.Queued w :=
  forEach_induction (fun t => t.ss.Queued w) xs f s h hf

section
variable {s : State} {w : Option Pos} (h : s.ss.Queued w)
include h

@[simp] theorem queued_scheduleTest (p : Pos) : (s.scheduleTest p).ss.Queued w := h.schedule ..

@[simp] theorem queued_dropSample (p : Pos) : (s.dropSample p).ss.Queued w := by
  have hlost := h.sameMarks (s.ss.sameMarks_loss p true)
  unfold State.dropSample
  dsimp only
  split <;> simpa using hlost

@[simp] theorem queued_arrive (p : Pos) (x : PlaceSample) : (s.arrive p x).ss.Queued w := by
  unfold State.arrive
  refine queued_scheduleTest ?_ p
  split
  · exact h.sameMarks (s.ss.sameMarks_store ..)
  · exact (h.sameMarks (s.ss.sameMarks_returnHead p)).sameMarks (SampleStore.sameMarks_store ..)
  · exact queued_dropSample h p

@[simp] theorem queued_flush (p : Pos) (b : Bool) : (s.flush p b).ss.Queued w := by
  have hflushed := h.flush p
  unfold State.flush
  dsimp only
  split <;> simpa using hflushed

@[simp] theorem queued_flushAll : s.flushAll.ss.Queued w := queued_forEach h fun _ _ ht => queued_flush ht ..

@[simp] theorem queued_flushStation (st : Station) : (s.flushStation st).ss.Queued w :=
  queued_forEach h fun _ _ ht => queued_flush ht ..

@[simp] theorem queued_clearLosses : s.clearLosses.ss.Queued w := by
  have hcleared : SampleStore.Queued { s.ss with chains := Vector.ofFn fun p => { s.ss.chains[p] with loss := false } } w :=
    h.sameMarks ⟨rfl, fun p => by simp⟩
  exact queued_forEach hcleared fun _ _ ht => by simpa using ht

@[simp] theorem queued_seatChange (st : Station) (a : Byte) (n l : Nat) : (s.seatChange st a n l).ss.Queued w := by
  simp [State.seatChange, h]

@[simp] theorem queued_linkLoss (st : Station) : (s.linkLoss st).ss.Queued w := by
  have hflushed : (State.flushStation (s.setNode st fun n => { n with state := .linkLost }) st).ss.Queued w := by simp [h]
  unfold State.linkLoss
  simpa using queued_forEach hflushed fun p t ht => by simpa using ht

@[simp] theorem queued_miss (st : Station) : (s.miss st).ss.Queued w := by
  unfold State.miss
  dsimp only
  split <;> simp [h]

@[simp] theorem queued_deliverSamples (st : Station) (xs : List PlaceSample) : (s.deliverSamples st xs).ss.Queued w :=
  queued_forEach h fun _ _ ht => by split <;> simp [ht]

@[simp] theorem queued_identifyActive (st : Station) (a : Byte) (n l : Nat) :
    (s.identifyActive st a n l).ss.Queued w := by
  unfold State.identifyActive
  dsimp only
  split <;> simp [h]

@[simp] theorem queued_sampleActive (st : Station) (a : Byte) (n l : Nat) (xs : List PlaceSample) :
    (s.sampleActive st a n l xs).ss.Queued w := by
  unfold State.sampleActive
  dsimp only
  (repeat' split) <;> simp [h]

@[simp] theorem queued_takeOutcome (st : Station) (k : PollKind) (l : Nat) (o : ReplyOutcome) :
    (s.takeOutcome st k l o).ss.Queued w := by
  unfold State.takeOutcome
  (repeat' split) <;> simp [h]

@[simp] theorem queued_deliver (p : Poll) (o : ReplyOutcome) : (s.deliver p o).ss.Queued w :=
  queued_takeOutcome (s := { s with lc := { s.lc with poll := none } }) h ..

@[simp] theorem queued_takeStartBit (p : Poll) (c : Nat) : (s.takeStartBit p c).ss.Queued w := by
  unfold State.takeStartBit
  dsimp only
  (repeat' split) <;> simp [h]

@[simp] theorem queued_readByte (p : Poll) : (s.readByte p).ss.Queued w := by
  unfold State.readByte
  dsimp only
  (repeat' split) <;> simp [h]

@[simp] theorem queued_enterConfig : s.enterConfig.ss.Queued w := by
  unfold State.enterConfig
  exact queued_flushAll (by simpa using h)

@[simp] theorem queued_enterRun : s.enterRun.ss.Queued w := by
  unfold State.enterRun
  simpa using queued_clearLosses (queued_flushAll (s := s.enterMode .run) h)

/-- A valid completion returns buckets and clears the loss flag (R59). -/
theorem queued_validCompletion (e : Evaluation) : (s.validCompletion e).ss.Queued w := by
  have hreturned : SampleStore.Queued (s.ss.returnOldest e.pos e.bank.h) w := h.sameMarks (s.ss.sameMarks_returnOldest ..)
  unfold State.validCompletion State.settleLoss
  dsimp only
  split <;> simpa using hreturned.sameMarks (SampleStore.sameMarks_loss _ e.pos false)

end

/-- SS at its reset state has no position queued (R64). -/
theorem queued_resetStore (s : State) : s.resetStore.ss.Queued none :=
  queued_forEach (s := { s with ss := s.ss.clear }) s.ss.queued_clear fun _ _ ht => by simpa using ht

/-- The completion of the evaluation in flight leaves none under evaluation (R61). -/
theorem queued_completeEvaluation {s : State} {e : Evaluation} (h : s.ss.Queued (some e.pos)) :
    (s.completeEvaluation e).ss.Queued none ∧ (s.completeEvaluation e).we = none := by
  refine ⟨?_, rfl⟩
  unfold State.completeEvaluation
  dsimp only
  refine queued_scheduleTest (s := { (_ : State) with we := none, ss := _ }) (SampleStore.Queued.clearFlags ?_) _
  split
  · exact queued_validCompletion h e
  · exact h

/-- WE takes the first position of the queue with a full window, and the stale ones before it leave the queue (R57). -/
theorem queued_takeHead {s : State} (queue : List Pos) (hidle : s.we = none)
    (h : SampleStore.Queued { s.ss with evalQueue := queue } none) :
    (s.takeHead queue).ss.Queued ((s.takeHead queue).we.map Evaluation.pos) := by
  induction queue generalizing s with
  | nil => simpa [State.takeHead, hidle] using h
  | cons p rest ih =>
    obtain ⟨hnodup, -, hmarks⟩ := h
    obtain ⟨hfresh, hrest⟩ := List.nodup_cons.mp hnodup
    have hne (q : Pos) (hq : q ≠ p) : ¬ p.val = q.val := fun e => hq (Fin.ext e.symm)
    cases hfull : s.windowFull p with
    | true =>
      rw [takeHead_full hfull]
      refine .of_marks hrest fun q => ?_
      by_cases hq : q = p
      · subst hq
        have := hmarks q
        simp_all [State.captureEvaluation]
      · have := hmarks q
        simp_all [State.captureEvaluation, Ne.symm hq]
    | false =>
      rw [takeHead_stale hfull]
      refine ih (by exact hidle) (.of_marks hrest fun q => ?_)
      have := hmarks q
      by_cases hq : q = p
      · subst hq
        simp_all
      · simp_all

/-- Whatever a request asks for, the Evaluation Queue stays sound. -/
theorem Served.keeps_queued {s t : State} {w : Work} (hserved : Served s t w)
    (h : s.ss.Queued (s.we.map Evaluation.pos)) : t.ss.Queued (t.we.map Evaluation.pos) := by
  cases hserved with
  | run => simpa using queued_enterRun h
  | config => simpa using queued_enterConfig h
  | reset hw hidle => simpa [hidle] using queued_resetStore s.resetRuntime
  | _ => simpa using h

/-- Every effect of a row keeps the Evaluation Queue sound. -/
theorem RowEffect.keeps_queued {s t : State} (heffect : RowEffect s t) (h : EvaluationQueueSound s) :
    EvaluationQueueSound t := by
  rw [← queued_iff] at h ⊢
  cases heffect with
  | nothing => exact h
  | fresh straps => exact .of_marks (by simp [State.fresh]) fun p => by simp [State.fresh]
  | blank power => exact .of_marks (by simp [State.blank]) fun p => by simp [State.blank]
  | evaluationStart hmay =>
    have hidle : s.we = none := by
      simp only [State.mayEvaluate, Bool.and_eq_true, State.weIdle, Option.isNone_iff_eq_none] at hmay
      exact hmay.1.1
    rw [hidle] at h
    exact queued_takeHead s.ss.evalQueue hidle h
  | storeReset he hchange =>
    have hreset := queued_resetStore { s with we := none, change := .none }
    simpa [State.settleReset] using hreset
  | completion he hchange =>
    rw [he] at h
    obtain ⟨hqueued, hwe⟩ := queued_completeEvaluation h
    simpa [hwe] using hqueued
  | @outcome _ l p _ _ o => simpa using queued_deliver (s := s.putLine l) h p o
  | @startBit _ l p c => simpa using queued_takeStartBit (s := s.putLine l) h p c
  | @byte _ l p => simpa using queued_readByte (s := s.putLine l) h p
  | frame f =>
    refine receive_induction (fun t => t.ss.Queued (t.we.map Evaluation.pos)) h ?_ (fun _ => h) ?_ f
    · intro t speed power ht
      simpa using ht
    · intro t w r _ hserved
      exact hserved.keeps_queued h
  | configEntry => simpa using queued_enterConfig h
  | _ => simpa using h

end Sys2Proof.Machine
end

section
/-! Every queue, count and change in progress stays within its bounds along every step (R43, R56, R139, R141 to R145, R148, R167). -/

namespace Sys2Proof.Machine

/-! ## The On-Demand Queue (R42, R43) -/

/-- Stations leave the On-Demand Queue in any number, and its bounds stay. -/
theorem OnDemandSound.of_sublist {s t : State} (h : OnDemandSound s) (hsub : t.ps.onDemand.Sublist s.ps.onDemand) :
    OnDemandSound t :=
  ⟨hsub.length_le.trans h.1, h.2.sublist hsub⟩

/-- A slot visit takes at most the head of the On-Demand Queue (R42). -/
theorem onDemand_slotVisit (s : State) : s.slotVisit.ps.onDemand.Sublist s.ps.onDemand := by
  unfold State.slotVisit
  dsimp only
  split
  next st => simp
  next =>
    unfold State.openSlot
    split
    next hq => simp_all
    next st rest hq =>
      have hq : s.ps.onDemand = st :: rest := hq
      simp [hq]

theorem onDemand_takeSlotStart (s : State) : s.takeSlotStart.ps.onDemand.Sublist s.ps.onDemand := by
  have hdecided : (State.decideSlot { s with tb := { s.tb with slotStarts := s.tb.slotStarts - 1 } }).ps.onDemand.Sublist
      s.ps.onDemand := by
    unfold State.decideSlot
    split
    · simp [State.sweepSlot]
    · exact onDemand_slotVisit _
    · simp
  simpa [State.takeSlotStart] using hdecided

theorem onDemand_goOn (s : State) : s.goOn.ps.onDemand.Sublist s.ps.onDemand := by
  have hended : (if s.stepSettled = true then s.endStep else s).ps = s.ps := by split <;> simp
  unfold State.goOn
  dsimp only
  split
  · split
    · simp [hended]
    · unfold State.beginStep
      dsimp only
      refine (onDemand_slotVisit _).trans ?_
      simp [hended]
  · rw [hended]

/-- A station that joins the queue is new to it and finds room (R43, R162). -/
theorem Served.keeps_onDemand {s t : State} {w : Work} (hserved : Served s t w) (h : OnDemandSound s) : OnDemandSound t := by
  cases hserved with
  | queued hw hnew hroom =>
    obtain ⟨-, hnodup⟩ := h
    exact ⟨by simpa using hroom, by simpa using hnodup.concat hnew⟩
  | config | run | reset | resetSettling =>
    refine h.of_sublist ?_
    simp [State.enterConfig, State.enterRun, State.resetRuntime]
  | _ => exact h.of_sublist (by simp)

theorem RowEffect.keeps_onDemand {s t : State} (heffect : RowEffect s t) (h : OnDemandSound s) : OnDemandSound t := by
  cases heffect with
  | fresh | blank => exact ⟨by simp [State.fresh, State.blank], by simp [State.fresh, State.blank]⟩
  | slotStart => exact h.of_sublist (onDemand_takeSlotStart _)
  | stepAdvance => exact h.of_sublist (onDemand_goOn _)
  | configEntry => exact h.of_sublist (by simp [State.enterConfig])
  | frame f =>
    refine receive_induction OnDemandSound h ?_ (fun _ => h) ?_ f
    · intro t speed power ht
      exact ht.of_sublist (by simp)
    · intro t w r _ hserved
      exact hserved.keeps_onDemand h
  | _ => exact h.of_sublist (by simp)

/-! ## The change in progress (R167) -/

/-- A service that stands serves a change that stands, and one that is no more in progress. -/
theorem ChangeServed.of_kept {s t : State} (h : ChangeServed s) (hmu : t.mu = s.mu)
    (hchange : t.change ≠ .none → s.change ≠ .none) : ChangeServed t := fun ht => by
  rw [hmu]
  exact h (hchange ht)

/-- While MU serves a request that asked for no change, none is in progress. -/
theorem ChangeServed.change_eq_none {s : State} (h : ChangeServed s)
    (hother : ∀ rec, s.mu.service ≠ some { req := rec, work := .changing }) : s.change = .none := by
  by_contra hne
  obtain ⟨rec, hrec⟩ := h hne
  exact hother rec hrec

theorem changeServed_of_none {s : State} (h : s.change = .none) : ChangeServed s := fun hne => absurd h hne

/-- A STEP in service is a request that asked for no change. -/
theorem ChangeServed.change_of_stepRun {s : State} {run : StepRun} (h : ChangeServed s) (hrun : s.stepRun = some run) :
    s.change = .none := by
  refine h.change_eq_none fun rec hrec => ?_
  simp [State.stepRun, hrec] at hrun

theorem ChangeServed.mapStep {s : State} (h : ChangeServed s) (f : StepRun → StepRun) : ChangeServed (s.mapStep f) := by
  intro hne
  obtain ⟨rec, hrec⟩ := h (by simpa using hne)
  exact ⟨rec, by simp [State.mapStep, hrec]⟩

theorem ChangeServed.testDeadlines {s : State} (h : ChangeServed s) : ChangeServed s.testDeadlines := by
  unfold State.testDeadlines
  split
  · refine ChangeServed.mapStep (h.of_kept ?_ ?_) _
    · exact forEach_keeps State.mu _ _ _ (by simp)
    · rw [forEach_keeps State.change _ _ _ (by simp)]
      exact id
  · exact h

theorem ChangeServed.endStep {s : State} (h : ChangeServed s) : ChangeServed s.endStep := by
  unfold State.endStep
  dsimp only
  exact ChangeServed.mapStep (h.testDeadlines.of_kept (by simp) (by simp)) _

theorem ChangeServed.goOn {s : State} (h : ChangeServed s) : ChangeServed s.goOn := by
  have hended : ChangeServed (if s.stepSettled = true then s.endStep else s) := by
    split
    · exact h.endStep
    · exact h
  unfold State.goOn
  dsimp only
  split
  next run hrun =>
    have hnone := hended.change_of_stepRun hrun
    split <;> exact changeServed_of_none (by simpa using hnone)
  next => exact hended

/-- The ticks of TB leave the change in progress and its request alone. -/
theorem ChangeServed.takeTicks {s : State} (h : ChangeServed s) : ChangeServed s.takeTick10 ∧ ChangeServed s.takeTick100 := by
  have htested : ChangeServed (if s.mode = .hold then s.testDeadlines else s) := by
    split
    · exact h.testDeadlines
    · exact h
  unfold State.takeTick10 State.takeTick100
  dsimp only
  constructor
  · split
    · exact htested
    · exact htested.of_kept (by simp) (by simp)
  · split
    · exact htested
    · exact htested.of_kept (by simp) (by simp)

theorem Change.postponed_eq_none {c : Change} : c.postponed = .none ↔ c = .none := by
  cases c <;> simp [Change.postponed]

/-- An accepted request meets no change in progress, and a change that it leaves in progress is its own (R151, R167). -/
theorem Served.changeServed {s t : State} {w : Work} {r : RequestRecord} (hserved : Served s t w) (h : s.change = .none) :
    ChangeServed (t.serving r w) := by
  cases hserved with
  | holdSettling | configWaiting | resetSettling => exact fun _ => ⟨r, rfl⟩
  | _ => exact changeServed_of_none (by simpa [State.serving] using h)

theorem RowEffect.keeps_changeServed {s t : State} (heffect : RowEffect s t) (h : ChangeServed s) : ChangeServed t := by
  cases heffect with
  | fresh | blank | storeReset | holdSettled | configEntry =>
    exact changeServed_of_none (by simp [State.fresh, State.blank, State.settleReset])
  | slotStart =>
    refine h.of_kept (by simp) fun hne => ?_
    simp only [State.takeSlotStart, State.postponeEntry] at hne
    split at hne <;> simp_all [Change.postponed_eq_none]
  | tick10 => exact h.takeTicks.1
  | tick100 => exact h.takeTicks.2
  | @stepAdvance _ l => exact ChangeServed.goOn (s := s.putLine l) h
  | completion =>
    refine h.of_kept (by simp) fun hne => ?_
    unfold State.callEntry at hne
    split at hne <;> simp_all
  | handOver hready =>
    refine changeServed_of_none (h.change_eq_none fun rec hrec => ?_)
    simp [ManagementUnit.ready, hrec] at hready
  | frame f =>
    refine receive_induction ChangeServed h ?_ ?_ ?_ f
    · intro t speed power ht
      exact ht.of_kept (by simp) (by simp)
    · exact fun _ => h
    · intro t w r hidle hserved
      exact hserved.changeServed (h.change_eq_none fun rec => by simp [hidle])
  | _ => exact h.of_kept (by simp) (by simp)

/-- Settles O59: each promise survives every effect of a row. -/
theorem everyStepKeepsTheQueuesBounded : Obligations.EveryStepKeepsTheQueuesBounded := by
  refine ⟨fun s t hdemand hevents hport hchange hstep => ?_, fun s t hqueue hstep => ?_⟩
  · have hbounded : t.vp.Bounded :=
      step_induction (fun s => s.vp.Bounded) (fun _ _ h => h) (fun _ _ heffect => heffect.keeps_bounded)
        ((bounded_iff s).mpr ⟨hevents, hport⟩) hstep
    obtain ⟨hevents', hport'⟩ := (bounded_iff t).mp hbounded
    exact ⟨step_induction OnDemandSound (fun _ _ h => h) (fun _ _ heffect => heffect.keeps_onDemand) hdemand hstep, hevents', hport',
      step_induction ChangeServed (fun _ _ h => h) (fun _ _ heffect => heffect.keeps_changeServed) hchange hstep⟩
  · exact step_induction EvaluationQueueSound (fun _ _ h => h) (fun _ _ heffect => heffect.keeps_queued) hqueue hstep

end Sys2Proof.Machine
end

section
/-! The slot clock and the schedule walk: CABIN_TIME_ADVANCE, SLOT_START and the beginning of a step (R35 to R44). -/

namespace Sys2Proof.Machine

/-! ## Cabin Time -/

/-- One millisecond, field by field (R35, R36, R38). -/
theorem passMillisecond_does (s : State) :
    s.passMillisecond = { s with tb := {
      time := s.tb.time + 1
      slotTimer := if 1 < s.tb.slotTimer then s.tb.slotTimer - 1 else s.tables.globals.slotPeriod
      slotStarts := if 1 < s.tb.slotTimer then s.tb.slotStarts else s.tb.slotStarts + 1
      ticks10 := s.tb.ticks10 ++ if 10 ∣ (s.tb.time + 1).toNat then [s.tb.time + 1] else []
      ticks100 := s.tb.ticks100 ++ if 100 ∣ (s.tb.time + 1).toNat then [s.tb.time + 1] else [] } } := by
  have hticks (n : Nat) (ticks : List Time) :
      (if (s.tb.time + 1).toNat % n = 0 then ticks ++ [s.tb.time + 1] else ticks) =
        ticks ++ if n ∣ (s.tb.time + 1).toNat then [s.tb.time + 1] else [] := by
    by_cases h : n ∣ (s.tb.time + 1).toNat
    · rw [if_pos (Nat.mod_eq_zero_of_dvd h), if_pos h]
    · rw [if_neg (mt Nat.dvd_of_mod_eq_zero h), if_neg h, List.append_nil]
  unfold State.passMillisecond TimeBase.advance TimeBase.slotStartNext
  dsimp only
  rw [hticks 10, hticks 100]
  by_cases h : 1 < s.tb.slotTimer
  · simp [h, Nat.not_le.mpr h]
  · simp [h, Nat.not_lt.mp h]

/-- Settles O5: in CONFIG and RUN the command is one millisecond of TB, and in HOLD it does not occur. -/
theorem cabinTimeAdvanceCountsOneMillisecond : Obligations.CabinTimeAdvanceCountsOneMillisecond := by
  refine ⟨fun s hs hmode => ?_, fun s hmode => ?_⟩
  · rw [← passMillisecond_does]
    exact occurs_due hs (by simpa using hmode)
  · exact occurs_otherwise (.inr (by simp [hmode]))

/-! ## The slot visit -/

/-- The visit of an ACTIVE station asks for a SAMPLE poll (R41). -/
theorem visitStation_active {s : State} {st : Station} (h : s.sm.nodes[st].state = .active) :
    s.visitStation st = (s.setNode st fun n => { n with probe := 0 }).requestPoll st .sample := by
  simp [State.visitStation, show s.sm.nodes[st.val].state = .active from h]

/-- The visit of another station asks for an IDENTIFY poll once in as many visits as the probe divider says (R41). -/
theorem visitStation_probed {s : State} {st : Station} (h : s.sm.nodes[st].state ≠ .active)
    (hprobe : s.tables.globals.probeDivider ≤ s.sm.nodes[st].probe + 1) :
    s.visitStation st = (s.setNode st fun n => { n with probe := 0 }).requestPoll st .identify := by
  simp [State.visitStation, show ¬ s.sm.nodes[st.val].state = .active from h,
    show s.tables.globals.probeDivider ≤ s.sm.nodes[st.val].probe + 1 from hprobe]

/-- The other visits of a station that is not ACTIVE count a probe (R41). -/
theorem visitStation_counted {s : State} {st : Station} (h : s.sm.nodes[st].state ≠ .active)
    (hprobe : ¬ s.tables.globals.probeDivider ≤ s.sm.nodes[st].probe + 1) :
    s.visitStation st = s.setNode st fun n => { n with probe := n.probe + 1 } := by
  simp [State.visitStation, show ¬ s.sm.nodes[st.val].state = .active from h,
    show ¬ s.tables.globals.probeDivider ≤ s.sm.nodes[st.val].probe + 1 from hprobe]

/-- A slot of a station entry visits the station, the slot index having moved on (R40, R41). -/
theorem slotVisit_station {s : State} {st : Station} (h : s.tables.schedule[s.ps.slotIndex] = some st) :
    s.slotVisit = State.visitStation { s with ps := { s.ps with slotIndex := s.nextSlotIndex } } st := by
  simp [State.slotVisit, show s.tables.schedule[s.ps.slotIndex.val] = some st from h]

/-- An open slot serves the On-Demand Queue, the slot index having moved on (R40, R42). -/
theorem slotVisit_open {s : State} (h : s.tables.schedule[s.ps.slotIndex] = none) :
    s.slotVisit = State.openSlot { s with ps := { s.ps with slotIndex := s.nextSlotIndex } } := by
  simp [State.slotVisit, show s.tables.schedule[s.ps.slotIndex.val] = none from h]

/-- The slot index moves on modulo the schedule length (R40, R157). -/
theorem nextSlotIndex_val {s : State} (hpos : 1 ≤ s.tables.globals.scheduleLength)
    (hlen : s.tables.globals.scheduleLength ≤ 64) :
    s.nextSlotIndex.val = (s.ps.slotIndex.val + 1) % s.tables.globals.scheduleLength := by
  have hlt := Nat.mod_lt (s.ps.slotIndex.val + 1) hpos
  exact Nat.mod_eq_of_lt (hlt.trans_le hlen)

/-- A visit of a station reads nothing but PS, LC, the Node Map and the tables. -/
theorem visitStation_congr {s t : State} (hps : t.ps = s.ps) (hlc : t.lc = s.lc) (hsm : t.sm = s.sm)
    (htables : t.tables = s.tables) (st : Station) :
    (t.visitStation st).ps = (s.visitStation st).ps ∧ (t.visitStation st).lc = (s.visitStation st).lc ∧
    (t.visitStation st).sm = (s.visitStation st).sm := by
  simp only [State.visitStation, hsm, htables]
  (repeat' split) <;> simp [State.requestPoll, State.setNode, hps, hlc, hsm]

/-- A slot visit reads nothing but PS, LC, the Node Map and the tables. -/
theorem slotVisit_congr {s t : State} (hps : t.ps = s.ps) (hlc : t.lc = s.lc) (hsm : t.sm = s.sm)
    (htables : t.tables = s.tables) :
    t.slotVisit.ps = s.slotVisit.ps ∧ t.slotVisit.lc = s.slotVisit.lc ∧ t.slotVisit.sm = s.slotVisit.sm := by
  have hindex : t.nextSlotIndex = s.nextSlotIndex := by simp [State.nextSlotIndex, hps, htables]
  have hsame : t.tables.schedule[t.ps.slotIndex] = s.tables.schedule[s.ps.slotIndex] := by simp only [hps, htables]
  cases hentry : s.tables.schedule[s.ps.slotIndex] with
  | some st =>
    rw [slotVisit_station hentry, slotVisit_station (hsame.trans hentry)]
    apply visitStation_congr
    · simp only [hps, hindex]
    exacts [hlc, hsm, htables]
  | none =>
    rw [slotVisit_open hentry, slotVisit_open (hsame.trans hentry)]
    cases hq : s.ps.onDemand <;> simp [State.openSlot, State.requestPoll, hps, hlc, hsm, hindex, hq]

/-! ## SLOT_START -/

/-- With no poll in flight, the samples of a SLOT_START all pass and PS takes the slot start that was raised. -/
theorem exec_slotStart {s : State} (line : Samples) (hs : s.power = .on) (hraised : 0 < s.tb.slotStarts)
    (hidle : s.lc.poll = none) :
    exec (.slotStart line) s = .next (s.putLine (line.foldl LineController.tick s.lc)).takeSlotStart := by
  change execSlotStart s line = _
  simp only [execSlotStart, afterLine, LineController.pass_idle_eq line hidle]
  exact occurs_due hs (by simp [hraised, State.lineIdle, hidle])

/-- PS takes a slot start in RUN: the walk's visit, and the postponement of an entry that waits. -/
theorem takeSlotStart_run {s : State} (hmode : s.mode = .run) :
    s.takeSlotStart = State.postponeEntry (State.slotVisit { s with tb := { s.tb with slotStarts := s.tb.slotStarts - 1 } }) := by
  simp [State.takeSlotStart, State.decideSlot, hmode]

/-- Settles O6: the walk by the entry it meets and the station's state, and the sweep. -/
theorem slotStartWalksOrSweeps : Obligations.SlotStartWalksOrSweeps := by
  refine ⟨?walk, ?sweep⟩
  case walk =>
    intro s line hs hmode hraised hidle hpos hlen now
    refine ⟨s.nextSlotIndex, nextSlotIndex_val hpos hlen, _, exec_slotStart line hs hraised hidle, ?_⟩
    have hquiet := LineController.foldl_tick_idle line hidle
    obtain ⟨hclock, -⟩ := LineController.foldl_tick_counts line s.lc
    change _ = now at hclock
    rw [takeSlotStart_run (by exact hmode)]
    generalize line.foldl LineController.tick s.lc = m at hquiet hclock ⊢
    obtain ⟨clock, idleRun, candidate, poll, buffer⟩ := m
    subst hquiet hclock
    cases hentry : s.tables.schedule[s.ps.slotIndex] with
    | some st =>
      rw [slotVisit_station (by exact hentry)]
      by_cases hactive : s.sm.nodes[st].state = .active
      · rw [visitStation_active (by exact hactive)]
        simpa [State.nextSlotIndex, State.requestPoll, State.setNode, State.putLine, State.postponeEntry, State.lineIdle,
          upd] using hactive
      · by_cases hprobe : s.tables.globals.probeDivider ≤ s.sm.nodes[st].probe + 1
        · rw [visitStation_probed (by exact hactive) (by exact hprobe)]
          simpa [State.nextSlotIndex, State.requestPoll, State.setNode, State.putLine, State.postponeEntry, State.lineIdle,
            upd] using And.intro hactive hprobe
        · rw [visitStation_counted (by exact hactive) (by exact hprobe)]
          simpa [State.nextSlotIndex, State.setNode, State.putLine, State.postponeEntry, State.lineIdle,
            upd] using And.intro hactive (Nat.not_le.mp hprobe)
    | none =>
      rw [slotVisit_open (by exact hentry)]
      cases hq : s.ps.onDemand with
      | nil =>
        simp [State.nextSlotIndex, State.openSlot, State.putLine, State.postponeEntry, State.lineIdle, hq]
      | cons st rest =>
        simp [State.nextSlotIndex, State.openSlot, State.requestPoll, State.putLine, State.postponeEntry, State.lineIdle,
          hq]
  case sweep =>
    intro s line hs hmode hraised hidle
    refine ⟨s.ps.sweep + 1, Fin.val_add .., ?_⟩
    rw [exec_slotStart line hs hraised hidle]
    simp [State.takeSlotStart, State.decideSlot, hmode, State.sweepSlot, State.putLine, State.requestPoll,
      State.postponeEntry, State.lineIdle]

end Sys2Proof.Machine
end

section
/-! The beginning of a step: one slot period of Cabin Time and one slot visit (R39, R40). -/

namespace Sys2Proof.Machine

/-! ## The advance of a step -/

/-- The Cabin Time values that `n` milliseconds from `now` pass. -/
def timesAfter (now : Time) (n : Nat) : List Time := (List.range n).map fun k => now + BitVec.ofNat 32 (k + 1)

theorem timesAfter_succ (now : Time) (n : Nat) : timesAfter now (n + 1) = (now + 1) :: timesAfter (now + 1) n := by
  unfold timesAfter
  rw [List.range_succ_eq_map, List.map_cons, List.map_map]
  congr 1
  refine List.map_congr_left fun k _ => ?_
  simp only [Function.comp_apply]
  bv_omega

/-- The milliseconds of a step count Cabin Time, raise no slot start to PS, and hold the ticks that they meet (R35, R38, R39). -/
theorem TimeBase.advanceBy_does (tb : TimeBase) (period n : Nat) :
    (tb.advanceBy period n).time = tb.time + BitVec.ofNat 32 n ∧ (tb.advanceBy period n).slotStarts = tb.slotStarts ∧
    (tb.advanceBy period n).ticks10 = tb.ticks10 ++ (timesAfter tb.time n).filter (fun v => v.toNat % 10 == 0) ∧
    (tb.advanceBy period n).ticks100 = tb.ticks100 ++ (timesAfter tb.time n).filter (fun v => v.toNat % 100 == 0) := by
  induction n generalizing tb with
  | zero => simp [advanceBy, timesAfter]
  | succ n ih =>
    have hfilter (m : Nat) (ticks : List Time) :
        (if (tb.time + 1).toNat % m = 0 then ticks ++ [tb.time + 1] else ticks) ++
            (timesAfter (tb.time + 1) n).filter (fun v => v.toNat % m == 0) =
          ticks ++ (timesAfter tb.time (n + 1)).filter (fun v => v.toNat % m == 0) := by
      rw [timesAfter_succ, List.filter_cons]
      split <;> simp_all
    obtain ⟨htime, hstarts, h10, h100⟩ := ih (tb.advance period)
    rw [advanceBy, htime, hstarts, h10, h100]
    refine ⟨?_, rfl, hfilter 10 tb.ticks10, hfilter 100 tb.ticks100⟩
    simp only [advance]
    bv_omega

/-- A slot timer within the period reaches the slot start once in a period, and runs on from it (R36). -/
theorem TimeBase.slotTimer_advanceBy (tb : TimeBase) {period n : Nat} (hpos : 1 ≤ tb.slotTimer) (hle : tb.slotTimer ≤ period)
    (hn : n ≤ period) :
    (tb.advanceBy period n).slotTimer = if n < tb.slotTimer then tb.slotTimer - n else tb.slotTimer + period - n := by
  induction n generalizing tb with
  | zero => simp [advanceBy, show 0 < tb.slotTimer from hpos]
  | succ n ih =>
    have hnext : (tb.advance period).slotTimer = if tb.slotTimer = 1 then period else tb.slotTimer - 1 := by
      simp only [advance, slotStartNext, decide_eq_true_eq]
      split <;> split <;> omega
    rw [advanceBy]
    by_cases hlast : tb.slotTimer = 1
    · rw [if_pos hlast] at hnext
      rw [ih _ (by omega) (by omega) (by omega), hnext]
      split <;> split <;> omega
    · rw [if_neg hlast] at hnext
      rw [ih _ (by omega) (by omega) (by omega), hnext]
      split <;> split <;> omega

/-- After a whole period the slot timer stands where it stood (R39). -/
theorem TimeBase.slotTimer_period (tb : TimeBase) {period : Nat} (hpos : 1 ≤ tb.slotTimer) (hle : tb.slotTimer ≤ period) :
    (tb.advanceBy period period).slotTimer = tb.slotTimer := by
  rw [tb.slotTimer_advanceBy hpos hle le_rfl, if_neg (by omega)]
  omega

/-! ## STEP_ADVANCE with no step begun -/

/-- The STEP that MU serves (R163). -/
theorem stepRun_of_service {s : State} {req : RequestRecord} {run : StepRun}
    (h : s.mu.service = some { req, work := .stepping run }) : s.stepRun = some run := by
  simp [State.stepRun, h]

theorem stepRun_eq_some {s : State} {run : StepRun} (h : s.stepRun = some run) :
    ∃ req, s.mu.service = some { req, work := .stepping run } := by
  unfold State.stepRun at h
  split at h
  next req run' hservice => cases h; exact ⟨req, hservice⟩
  next => cases h

/-- A change of the STEP in service. -/
theorem mapStep_of_service {s : State} {req : RequestRecord} {run : StepRun}
    (h : s.mu.service = some { req, work := .stepping run }) (f : StepRun → StepRun) :
    s.mapStep f = { s with mu := { s.mu with service := some { req, work := .stepping (f run) } } } := by
  simp [State.mapStep, h]

/-- A STEP whose step is not begun waits for nothing. -/
theorem stepSettled_of_not_inStep {s : State} {run : StepRun} (hrun : s.stepRun = some run) (hin : run.inStep = false) :
    s.stepSettled = false := by
  simp [State.stepSettled, hrun, hin]

/-- A STEP_ADVANCE with no step begun begins the next one (R39). -/
theorem goOn_begins {s : State} {run : StepRun} (hrun : s.stepRun = some run) (hin : run.inStep = false)
    (hleft : run.remaining ≠ 0) : s.goOn = s.beginStep := by
  simp [State.goOn, stepSettled_of_not_inStep hrun hin, hrun, hleft]

/-- With no poll in flight, the samples of a STEP_ADVANCE all pass. -/
theorem exec_stepAdvance {s : State} (line : Samples) (hs : s.power = .on) (hidle : s.lc.poll = none)
    (hready : s.stepReady = true) :
    exec (.stepAdvance line) s = .next (s.putLine (line.foldl LineController.tick s.lc)).goOn := by
  change execStepAdvance s line = _
  simp only [execStepAdvance, afterLine, LineController.pass_idle_eq line hidle]
  exact occurs_due hs hready

/-- A slot visit changes PS, LC and the Node Map alone. -/
theorem slotVisit_does (s : State) :
    s.slotVisit = { s with ps := s.slotVisit.ps, lc := s.slotVisit.lc, sm := s.slotVisit.sm } := by
  have hframe := slotVisit_frame s
  generalize s.slotVisit = t at hframe ⊢
  cases t
  simp_all

/-- A beginning step: its time passes, and PS makes the slot visit (R39). -/
theorem beginStep_of_service {s : State} {req : RequestRecord} {run : StepRun}
    (h : s.mu.service = some { req, work := .stepping run }) :
    s.beginStep = State.slotVisit { s with
      tb := s.tb.advanceBy s.tables.globals.slotPeriod s.tables.globals.slotPeriod
      mu := { s.mu with service := some { req, work := .stepping { run with
        remaining := run.remaining - 1, inStep := true, deadlinesTested := false } } } } := by
  unfold State.beginStep
  rw [mapStep_of_service h]

/-- Settles O9: the step is a run of milliseconds with one visit of PS, and the visit reads nothing that the milliseconds change. -/
theorem stepAdvanceBeginsAStep : Obligations.StepAdvanceBeginsAStep := by
  intro s line req count left d hs hmode hidle hservice hpos hle
  have hrun := stepRun_of_service hservice
  have hready : s.stepReady = true := by simp [State.stepReady, hrun]
  have hbegins := goOn_begins (s := s.putLine (line.foldl LineController.tick s.lc)) hrun rfl (by simp)
  obtain ⟨htime, hstarts, h10, h100⟩ := s.tb.advanceBy_does s.tables.globals.slotPeriod s.tables.globals.slotPeriod
  refine ⟨_, exec_stepAdvance line hs hidle hready, ?_⟩
  rw [hbegins, beginStep_of_service (by exact hservice)]
  refine ⟨?_, by simp, by simpa using htime, ?_, by simpa using hstarts, by simpa [timesAfter] using h10,
    by simpa [timesAfter] using h100, ?_⟩
  · refine (slotVisit_does _).trans ?_
    simp [State.putLine]
  · simpa using s.tb.slotTimer_period hpos hle
  · intro u hu
    rw [exec_slotStart line (by exact hs) (by simp) (by exact hidle)] at hu
    obtain rfl := Host.Outcome.next.inj hu
    rw [takeSlotStart_run rfl]
    simp only [postponeEntry_frame]
    exact slotVisit_congr rfl rfl rfl rfl

end Sys2Proof.Machine
end

section
/-! Moves of the reminders: what one of them hands on, and what a run of them makes of each record (R112, R113, R116, R122). -/

namespace Sys2Proof.Machine

/-! ## What the moves leave alone -/

/-- From `s` to `t` nothing changes but the reminder records, OU, and VP. -/
def RecordsMoved (s t : State) : Prop :=
  t = { s with ru := { s.ru with records := t.ru.records }, ou := t.ou, vp := t.vp }

theorem RecordsMoved.refl (s : State) : RecordsMoved s s := rfl

theorem RecordsMoved.trans {s t u : State} (hst : RecordsMoved s t) (htu : RecordsMoved t u) : RecordsMoved s u := by
  unfold RecordsMoved at *
  rw [htu, hst]

theorem recordsMoved_putRecord (s : State) (p : Pos) (r : ReminderRecord) : RecordsMoved s (s.putRecord p r) := by
  have hframe := putRecord_frame s p r
  obtain ⟨hru, -⟩ := putRecord_does s p r
  unfold RecordsMoved
  generalize s.putRecord p r = t at hframe hru ⊢
  cases t
  simp_all

/-! ## What the moves hand on -/

/-- How far the escalation has come in a state: from PENDING, where it has not begun, over the two stages to EXPIRED (R112, R113). -/
def Reminder.rank : Reminder → Nat
  | .inactive | .buckled | .pending | .suspended => 0
  | .stage1 => 1
  | .stage2 => 2
  | .expired => 3

/-- A cadence counter, with the Cabin Time of its restart, stands or restarts at `now` (R126, R128). -/
def StandsOrRestarts (now : Time) (before after : Nat × Time) : Prop := after = before ∨ after = (0, now)

theorem StandsOrRestarts.trans {now : Time} {a b c : Nat × Time} (hab : StandsOrRestarts now a b)
    (hbc : StandsOrRestarts now b c) : StandsOrRestarts now a c := by
  rcases hbc with rfl | rfl
  · exact hab
  · exact .inr rfl

/-- From `s` to `t` OU changes in what follows from the reminder states alone. -/
def OutputMoved (s t : State) : Prop :=
  t.ou = { s.ou with
    groups := t.ou.groups, flash := t.ou.flash, flashTime := t.ou.flashTime, owner := t.ou.owner, chime := t.ou.chime,
    chimeTime := t.ou.chimeTime, reminders := t.ou.reminders } ∧
  StandsOrRestarts s.tb.time (s.ou.flash, s.ou.flashTime) (t.ou.flash, t.ou.flashTime) ∧
  StandsOrRestarts s.tb.time (s.ou.chime, s.ou.chimeTime) (t.ou.chime, t.ou.chimeTime)

theorem OutputMoved.trans {s t u : State} (hst : OutputMoved s t) (htu : OutputMoved t u) (htime : t.tb.time = s.tb.time) :
    OutputMoved s u := by
  obtain ⟨hou, hflash, hchime⟩ := hst
  obtain ⟨hou', hflash', hchime'⟩ := htu
  rw [htime] at hflash' hchime'
  refine ⟨?_, hflash.trans hflash', hchime.trans hchime'⟩
  rw [hou', hou]

theorem outputMoved_of_ou {s t : State} (h : t.ou = s.ou) : OutputMoved s t := by
  refine ⟨?_, .inl ?_, .inl ?_⟩ <;> rw [h]

theorem outputMoved_deriveGroup (s : State) (g : Fin 6) : OutputMoved s (s.deriveGroup g) := by
  unfold State.deriveGroup
  dsimp only
  repeat' split
  · exact outputMoved_of_ou rfl
  · exact ⟨rfl, .inr rfl, .inl rfl⟩
  · exact ⟨rfl, .inl rfl, .inl rfl⟩

theorem outputMoved_deriveOwner (s : State) : OutputMoved s s.deriveOwner := by
  unfold State.deriveOwner
  dsimp only
  split
  · exact outputMoved_of_ou rfl
  · exact ⟨rfl, .inl rfl, .inr rfl⟩

/-- A reminder state that RU hands OU restarts a cadence counter, or lets it stand (R124, R126 to R128). -/
theorem outputMoved_handReminder (s : State) (p : Pos) (r : Reminder) : OutputMoved s (s.handReminder p r) := by
  have hstored : OutputMoved s { s with ou := { s.ou with reminders := s.ou.reminders.set p r } } :=
    ⟨rfl, .inl rfl, .inl rfl⟩
  unfold State.handReminder
  dsimp only
  split
  · exact (hstored.trans (outputMoved_deriveGroup _ _) rfl).trans (outputMoved_deriveOwner _) (by simp)
  · exact hstored.trans (outputMoved_deriveOwner _) rfl

theorem outputMoved_putRecord (s : State) (p : Pos) (r : ReminderRecord) : OutputMoved s (s.putRecord p r) := by
  unfold State.putRecord
  dsimp only
  split
  · exact outputMoved_of_ou rfl
  · exact outputMoved_handReminder { s with ru := { s.ru with records := s.ru.records.set p r } } p r.state

/-- A position's reminder stands with what OU and VP hold of it, or has escalated and OU and VP are told (R122). -/
def ReminderHanded (s t : State) (p : Pos) : Prop :=
  t.ru.records[p].state = s.ru.records[p].state ∧ t.ou.reminders[p] = s.ou.reminders[p] ∧
    t.vp.belt.content[p] = s.vp.belt.content[p] ∨
  s.ru.records[p].state.rank < t.ru.records[p].state.rank ∧ t.ou.reminders[p] = t.ru.records[p].state ∧
    t.vp.belt.content[p] = { buckle := s.ru.buckles[p].confirmed, indication := t.ru.records[p].state.indication }

/-- From `s` to `t` reminders have escalated, and OU and VP have been told of each that has (R122 to R128). -/
structure Escalated (s t : State) : Prop where
  time : t.tb.time = s.tb.time
  buckles : t.ru.buckles = s.ru.buckles
  port : t.vp = { s.vp with belt := t.vp.belt }
  output : OutputMoved s t
  handed : ∀ p, ReminderHanded s t p

theorem Escalated.refl (s : State) : Escalated s s :=
  ⟨rfl, rfl, rfl, outputMoved_of_ou rfl, fun _ => .inl ⟨rfl, rfl, rfl⟩⟩

theorem Escalated.trans {s t u : State} (hst : Escalated s t) (htu : Escalated t u) : Escalated s u := by
  refine ⟨htu.time.trans hst.time, htu.buckles.trans hst.buckles, ?_, hst.output.trans htu.output hst.time, fun p => ?_⟩
  · rw [htu.port, hst.port]
  · have hbuckles := hst.buckles
    rcases htu.handed p with ⟨hstate, hcopy, hbelt⟩ | ⟨hrank, hcopy, hbelt⟩
    · unfold ReminderHanded
      rw [hstate, hcopy, hbelt]
      exact hst.handed p
    · refine .inr ⟨?_, hcopy, by rw [hbelt, hbuckles]⟩
      rcases hst.handed p with ⟨hstate, -⟩ | ⟨hrank', -⟩
      · rwa [← hstate]
      · exact hrank'.trans hrank

/-- The states differ at most in what the reminders hand nothing on of. -/
theorem Escalated.of_same {s t : State} (htime : t.tb.time = s.tb.time) (hbuckles : t.ru.buckles = s.ru.buckles)
    (hvp : t.vp = s.vp) (hou : t.ou = s.ou) (hstate : ∀ p : Pos, t.ru.records[p].state = s.ru.records[p].state) :
    Escalated s t :=
  ⟨htime, hbuckles, by rw [hvp], outputMoved_of_ou hou, fun p => .inl ⟨hstate p, by rw [hou], by rw [hvp]⟩⟩

theorem escalated_handedOn {s t : State} (h : Escalated s t) : RemindersHandedOn s t := by
  obtain ⟨hou, hflash, hchime⟩ := h.output
  refine ⟨h.port, hou, ?_, ?_, fun p => ?_⟩
  · simpa [StandsOrRestarts] using hflash
  · simpa [StandsOrRestarts] using hchime
  · rcases h.handed p with ⟨hstate, hcopy, hbelt⟩ | ⟨hrank, hcopy, hbelt⟩
    · exact ⟨by rw [if_pos hstate, hcopy], by rw [if_pos hstate, hbelt]⟩
    · have hne : t.ru.records[p].state ≠ s.ru.records[p].state := fun e => hrank.ne (by rw [e])
      exact ⟨by rw [if_neg hne, hcopy], by rw [if_neg hne, hbelt]⟩

/-- A record whose state has escalated is stored and handed on (R122). -/
theorem escalated_putRecord {s : State} {p : Pos} {r : ReminderRecord} (h : s.ru.records[p].state.rank < r.state.rank) :
    Escalated s (s.putRecord p r) := by
  obtain ⟨hru, -, -, hvp, hcopies, hbelt⟩ := putRecord_does s p r
  have hne : r.state ≠ s.ru.records[p].state := fun e => h.ne (by rw [e])
  rw [if_neg hne] at hcopies hbelt
  refine ⟨by simp, by rw [hru], hvp, outputMoved_putRecord s p r, fun q => ?_⟩
  unfold ReminderHanded
  rw [hru, hcopies, hbelt]
  by_cases hq : q = p
  · subst hq
    exact .inr (by simpa using h)
  · have hne' : ¬ p.val = q.val := fun e => hq (Fin.ext e.symm)
    exact .inl (by simp [hne'])

/-! ## The moves -/

theorem awaitsTrigger_iff {r : ReminderRecord} : r.awaitsTrigger = true ↔ r.state = .pending ∧ r.deadline = none := by
  simp [ReminderRecord.awaitsTrigger]

theorem deadlineReached_pending {r : ReminderRecord} {now : Time} (h : r.deadlineReached now = true) : r.state = .pending := by
  simp only [ReminderRecord.deadlineReached, Bool.and_eq_true, beq_iff_eq] at h
  exact h.1

/-- The record of a move is the position's, and no other record moves. -/
theorem putRecord_record (s : State) (p q : Pos) (r : ReminderRecord) :
    (s.putRecord p r).ru.records[q] = if q = p then r else s.ru.records[q] := by
  rw [(putRecord_does s p r).1]
  simp [Vector.getElem_set, Fin.ext_iff, eq_comm]

/-- From `s` to `t` the record of `p` has become `r`, with what that hands on, and no other record has changed. -/
structure PositionMoved (s t : State) (p : Pos) (r : ReminderRecord) : Prop where
  escalated : Escalated s t
  moved : RecordsMoved s t
  records : ∀ q : Pos, t.ru.records[q] = if q = p then r else s.ru.records[q]

theorem PositionMoved.stay {s : State} {p : Pos} {r : ReminderRecord} (h : r = s.ru.records[p]) : PositionMoved s s p r :=
  ⟨.refl s, .refl s, fun _ => by split <;> simp_all⟩

theorem PositionMoved.put {s : State} {p : Pos} {r : ReminderRecord} (h : s.ru.records[p].state.rank < r.state.rank) :
    PositionMoved s (s.putRecord p r) p r :=
  ⟨escalated_putRecord h, recordsMoved_putRecord .., fun _ => putRecord_record ..⟩

theorem PositionMoved.trans {s t u : State} {p : Pos} {r r' : ReminderRecord} (hst : PositionMoved s t p r)
    (htu : PositionMoved t u p r') : PositionMoved s u p r' := by
  refine ⟨hst.escalated.trans htu.escalated, hst.moved.trans htu.moved, fun q => ?_⟩
  rw [htu.records, hst.records]
  split <;> rfl

/-- A deadline test moves the position or leaves it (R116). -/
theorem deadlineTest_moved (s : State) (p : Pos) :
    PositionMoved s (s.deadlineTest p) p (deadlineTaken (s.profileOf p) s.tb.time s.ru.records[p]) := by
  unfold State.deadlineTest deadlineTaken
  split
  next hreached =>
    refine .put ?_
    rw [deadlineReached_pending hreached]
    exact Nat.zero_lt_two
  next => exact .stay rfl

/-- The record after the move that a trigger test has made due, if one has (R112). -/
def triggerTaken (f : Profile) (now : Time) (r : ReminderRecord) : ReminderRecord :=
  if r.triggered && r.awaitsTrigger then .toStage1 (f.stage1 * 10) now else r

theorem takeTrigger_moved (s : State) (p : Pos) :
    PositionMoved s (s.takeTrigger p) p (triggerTaken (s.profileOf p) s.tb.time s.ru.records[p]) := by
  unfold State.takeTrigger triggerTaken
  split
  next hmarked =>
    rw [Bool.and_eq_true, awaitsTrigger_iff] at hmarked
    refine .put ?_
    rw [hmarked.2.1]
    exact Nat.zero_lt_one
  next => exact .stay rfl

/-- The record after the expiry that a tick has made due, if one has (R113). -/
def expiryTaken (f : Profile) (now : Time) (r : ReminderRecord) : ReminderRecord :=
  if r.expiring then
    match r.state with
    | .stage1 => .toStage2 (f.stage2Max * 10) now
    | .stage2 => .toExpired
    | .inactive | .buckled | .pending | .expired | .suspended => r
  else r

theorem takeExpiry_moved (s : State) (p : Pos) :
    PositionMoved s (s.takeExpiry p) p (expiryTaken (s.profileOf p) s.tb.time s.ru.records[p]) := by
  unfold State.takeExpiry expiryTaken State.expireStage
  split
  next =>
    cases hstate : s.ru.records[p].state with
    | stage1 => exact .put (by rw [hstate]; exact Nat.one_lt_two)
    | stage2 => exact .put (by rw [hstate]; exact Nat.lt_succ_self 2)
    | _ => exact .stay rfl
  next => exact .stay rfl

/-- A record that takes both marks, the trigger's first, has taken the mark that its state can have (R112, R113). -/
theorem expiryTaken_triggerTaken (f : Profile) (now : Time) (r : ReminderRecord) :
    expiryTaken f now (triggerTaken f now r) = markTaken f now r := by
  unfold triggerTaken markTaken
  cases hstate : r.state with
  | pending =>
    by_cases htaken : r.triggered = true ∧ r.deadline = none
    · simp [ReminderRecord.awaitsTrigger, hstate, htaken, expiryTaken, ReminderRecord.toStage1]
    · have hstays : (r.triggered && r.awaitsTrigger) = false := by
        simpa [ReminderRecord.awaitsTrigger, hstate, Option.isSome_iff_ne_none] using htaken
      simp [hstays, htaken, expiryTaken, hstate]
  | _ => simp [ReminderRecord.awaitsTrigger, hstate, expiryTaken, ReminderRecord.toStage2, ReminderRecord.toExpired]

/-- Both marks of a position are taken (R112, R113). -/
theorem takeMarks_moved (s : State) (p : Pos) :
    PositionMoved s ((s.takeTrigger p).takeExpiry p) p (markTaken (s.profileOf p) s.tb.time s.ru.records[p]) := by
  have htrigger := takeTrigger_moved s p
  have hexpiry := takeExpiry_moved (s.takeTrigger p) p
  have hprofile : (s.takeTrigger p).profileOf p = s.profileOf p := by simp [State.profileOf, State.entry]
  rw [hprofile, (takeTrigger_frame s p).2.2.2.1, htrigger.records, if_pos rfl, expiryTaken_triggerTaken] at hexpiry
  exact htrigger.trans hexpiry

/-! ## Runs of moves over the positions -/

/-- What moves of each position in turn make of the records, where the move of `p` makes `g p` of its record in every state with
the tables and the Cabin Time of `s`. -/
theorem forEach_moved {f : Pos → State → State} {g : Pos → ReminderRecord → ReminderRecord} {s : State}
    (hf : ∀ p t, t.tables = s.tables → t.tb = s.tb → PositionMoved t (f p t) p (g p t.ru.records[p])) :
    Escalated s (forEach allPos f s) ∧ RecordsMoved s (forEach allPos f s) ∧
    ∀ q : Pos, (forEach allPos f s).ru.records[q] = g q s.ru.records[q] := by
  have hrun (xs : List Pos) : xs.Nodup → ∀ t, RecordsMoved s t → Escalated s t →
      Escalated s (forEach xs f t) ∧ RecordsMoved s (forEach xs f t) ∧
      ∀ q : Pos, (forEach xs f t).ru.records[q] = if q ∈ xs then g q t.ru.records[q] else t.ru.records[q] := by
    induction xs with
    | nil => exact fun _ t hmoved hescalated => ⟨hescalated, hmoved, fun _ => rfl⟩
    | cons p xs ih =>
      intro hnodup t hmoved hescalated
      obtain ⟨hnew, hnodup⟩ := List.nodup_cons.mp hnodup
      have hstep := hf p t (by rw [hmoved]) (by rw [hmoved])
      obtain ⟨hescalated', hmoved', hrecords⟩ := ih hnodup _ (hmoved.trans hstep.moved) (hescalated.trans hstep.escalated)
      refine ⟨hescalated', hmoved', fun q => ?_⟩
      change (forEach xs f (f p t)).ru.records[q] = _
      rw [hrecords, hstep.records]
      by_cases hq : q = p
      · subst hq
        simp [hnew]
      · simp [hq]
  obtain ⟨hescalated, hmoved, hrecords⟩ := hrun allPos (by decide) s (.refl s) (.refl s)
  exact ⟨hescalated, hmoved, fun q => by rw [hrecords, if_pos (mem_allPos q)]⟩

/-- Every move that is due is taken, position by position (R112, R113). -/
theorem takeDueMoves_does (s : State) :
    Escalated s s.takeDueMoves ∧ RecordsMoved s s.takeDueMoves ∧
    ∀ q : Pos, s.takeDueMoves.ru.records[q] = markTaken (s.profileOf q) s.tb.time s.ru.records[q] := by
  unfold State.takeDueMoves
  refine forEach_moved (g := fun p r => markTaken (s.profileOf p) s.tb.time r) fun p t htables htb => ?_
  have hmoved := takeMarks_moved t p
  rwa [htb, show t.profileOf p = s.profileOf p by simp [State.profileOf, State.entry, htables]] at hmoved

/-! ## The deadline test of a step -/

/-- The part of a STEP in service whose step has settled (R39, R65). -/
theorem stepSettled_iff {s : State} (hmode : s.mode = .hold) :
    s.stepSettled = true ↔ ∃ req run, s.StepSettled req run := by
  constructor
  · intro h
    simp only [State.stepSettled, State.lineIdle, State.weIdle, Bool.and_eq_true, Option.isNone_iff_eq_none,
      List.isEmpty_iff] at h
    obtain ⟨⟨⟨hpoll, hwe⟩, hqueue⟩, hin⟩ := h
    cases hrun : s.stepRun with
    | none => simp [hrun] at hin
    | some run =>
      obtain ⟨req, hservice⟩ := stepRun_eq_some hrun
      exact ⟨req, run, hmode, hpoll, hwe, hqueue, hservice, by simpa [hrun] using hin⟩
  · rintro ⟨req, run, -, hpoll, hwe, hqueue, hservice, hin⟩
    simp [State.stepSettled, State.lineIdle, State.weIdle, hpoll, hwe, hqueue, stepRun_of_service hservice, hin]

/-- The deadline test of a step in progress, made unless it was (R116). -/
theorem testDeadlines_does {s : State} {req : RequestRecord} {run : StepRun}
    (hservice : s.mu.service = some { req, work := .stepping run }) :
    Escalated s s.testDeadlines ∧
    s.testDeadlines = { s with
      ru := { s.ru with records := s.testDeadlines.ru.records }, ou := s.testDeadlines.ou, vp := s.testDeadlines.vp,
      mu := { s.mu with service := some { req, work := .stepping { run with deadlinesTested := true } } } } ∧
    ∀ p : Pos, s.testDeadlines.ru.records[p] = if run.deadlinesTested = true then s.ru.records[p]
      else deadlineTaken (s.profileOf p) s.tb.time s.ru.records[p] := by
  cases htested : run.deadlinesTested with
  | true =>
    have hstays : s.testDeadlines = s := by
      simp [State.testDeadlines, State.deadlinesUntested, stepRun_of_service hservice, htested]
    have hrun : { run with deadlinesTested := true } = run := by cases run; simp_all
    rw [hstays, hrun, ← hservice]
    exact ⟨.refl s, rfl, fun _ => rfl⟩
  | false =>
    obtain ⟨hescalated, hmoved, hrecords⟩ :=
      forEach_moved (f := fun p t => t.deadlineTest p) (g := fun p r => deadlineTaken (s.profileOf p) s.tb.time r) (s := s)
        fun p t htables htb => by
          have hmoved := deadlineTest_moved t p
          rwa [htb, show t.profileOf p = s.profileOf p by simp [State.profileOf, State.entry, htables]] at hmoved
    generalize hu : forEach allPos (fun p t => t.deadlineTest p) s = u at hescalated hmoved hrecords
    have hmu : u.mu = s.mu := by rw [hmoved]
    have htest : s.testDeadlines = { u with
        mu := { s.mu with service := some { req, work := .stepping { run with deadlinesTested := true } } } } := by
      unfold State.testDeadlines
      rw [if_pos (by simp [State.deadlinesUntested, stepRun_of_service hservice, htested]), hu,
        mapStep_of_service (by rw [hmu]; exact hservice), hmu]
    rw [htest]
    refine ⟨hescalated.trans (.of_same rfl rfl rfl rfl fun _ => rfl), ?_, hrecords⟩
    rw [hmoved]

/-- The deadline test of a settled step (R116). -/
theorem testDeadlines_taken {s : State} {req : RequestRecord} {run : StepRun} (h : s.StepSettled req run) :
    StepDeadlinesTaken s s.testDeadlines req run := by
  obtain ⟨-, -, -, -, hservice, -⟩ := h
  obtain ⟨hescalated, hdoes, hrecords⟩ := testDeadlines_does hservice
  exact ⟨hdoes, escalated_handedOn hescalated, hrecords⟩

end Sys2Proof.Machine
end

section
/-! The ticks of Cabin Time and the grace deadline (R38, R39, R108, R112, R113, R116, R125 to R128). -/

namespace Sys2Proof.Machine

/-! ## TICK_10MS -/

theorem exec_tick10ms {s : State} {v : Time} {rest : List Time} (hs : s.power = .on) (hticks : s.tb.ticks10 = v :: rest)
    (hpass : s.ticksPass = true) : exec .tick10ms s = .next s.takeTick10 :=
  occurs_due hs (by simp [hpass, hticks])

/-- Out of HOLD the oldest tick reaches OU (R38). -/
theorem takeTick10_cons {s : State} {v : Time} {rest : List Time} (hticks : s.tb.ticks10 = v :: rest) (hmode : s.mode ≠ .hold) :
    s.takeTick10 = State.outputTick { s with tb := { s.tb with ticks10 := rest } } v := by
  simp [State.takeTick10, hmode, hticks]

theorem outputTick_other {s : State} (v : Time) (hmode : s.mode ≠ .run) : s.outputTick v = s := by
  simp [State.outputTick, hmode]

/-- In HOLD outside a settled step no tick is taken (R39). -/
theorem ticksPass_hold {s : State} (hmode : s.mode = .hold) (h : ∀ req run, ¬ s.StepSettled req run) : s.ticksPass = false := by
  have hsettled : s.stepSettled = false := by
    rw [← Bool.not_eq_true, stepSettled_iff hmode]
    exact fun ⟨req, run, hsettled⟩ => h req run hsettled
  simp [State.ticksPass, hmode, hsettled]

/-- In a settled step the ticks are taken (R39). -/
theorem ticksPass_settled {s : State} {req : RequestRecord} {run : StepRun} (h : s.StepSettled req run) : s.ticksPass = true := by
  have hsettled := (stepSettled_iff h.1).mpr ⟨req, run, h⟩
  simp [State.ticksPass, hsettled]

/-- Settles O7, by the mode. -/
theorem tenMillisecondTickAdvancesTheCadences : Obligations.TenMillisecondTickAdvancesTheCadences := by
  intro s v rest hs hticks
  refine ⟨fun hmode => ?_, fun hmode => ?_, fun req run hsettled => ?_, fun hmode hunsettled => ?_⟩
  · rw [exec_tick10ms hs hticks (by simp [State.ticksPass, hmode]), takeTick10_cons hticks (by simp [hmode])]
    rw [State.outputTick, if_pos hmode]
    rfl
  · rw [exec_tick10ms hs hticks (by simp [State.ticksPass, hmode]), takeTick10_cons hticks (by simp [hmode]),
      outputTick_other v (by simp [hmode])]
  · refine ⟨_, testDeadlines_taken hsettled, ?_⟩
    rw [exec_tick10ms hs hticks (ticksPass_settled hsettled)]
    simp [State.takeTick10, hsettled.1, hticks, outputTick_other]
  · exact occurs_otherwise (.inr (by simp [ticksPass_hold hmode hunsettled]))

/-! ## TICK_100MS -/

/-- Modulo 2^32 a time lies after a mark exactly when it does not lie at or before it (R108, R113). -/
theorem atOrBefore_eq_false {t mark : Time} : atOrBefore t mark = false ↔ 2 ^ 31 ≤ (mark - t).toNat := by
  simp [atOrBefore]

/-- The trigger of R112. -/
theorem triggerHolds_iff {s : State} {p : Pos} :
    s.triggerHolds p = true ↔ triggerAt (s.profileOf p) s.speedReading s.ru.ignitionCount := by
  simp [State.triggerHolds, triggerAt]

/-- The ignition-on counter after a tick (R108). -/
theorem countIgnition_eq (s : State) (v : Time) :
    s.countIgnition v = tickedCount s.ignitionOn s.ru.ignitionTime v s.ru.ignitionCount := by
  simp [State.countIgnition, tickedCount, atOrBefore_eq_false]

/-- What a 100 ms tick makes of RU (R108, R112, R113). -/
theorem reminderTick_does (s : State) (v : Time) :
    s.reminderTick v = { s with ru := { s.ru with
      records := (s.reminderTick v).ru.records
      ignitionCount := tickedCount s.ignitionOn s.ru.ignitionTime v s.ru.ignitionCount } } := by
  rw [← countIgnition_eq]
  rfl

/-- A running stage whose timer a tick of Cabin Time `v` counts (R113). -/
abbrev ReminderRecord.Counts (r : ReminderRecord) (v : Time) : Prop :=
  (r.state = .stage1 ∨ r.state = .stage2) ∧ 2 ^ 31 ≤ (r.entryTime - v).toNat

theorem countDown_of_counts {r : ReminderRecord} {v : Time} (h : r.Counts v) :
    r.countDown v = if 1 < r.timer then { r with timer := r.timer - 1 } else { r with expiring := true } := by
  obtain ⟨hstate, hafter⟩ := h
  simp [ReminderRecord.countDown, atOrBefore_eq_false.mpr hafter, hstate]

theorem countDown_of_not_counts {r : ReminderRecord} {v : Time} (h : ¬ r.Counts v) : r.countDown v = r := by
  unfold ReminderRecord.countDown
  rw [if_neg]
  simpa [ReminderRecord.Counts, atOrBefore_eq_false] using h

/-- A count leaves all but the timer and the mark of an expiry. -/
theorem countDown_does (r : ReminderRecord) (v : Time) :
    r.countDown v = { r with timer := (r.countDown v).timer, expiring := (r.countDown v).expiring } := by
  unfold ReminderRecord.countDown
  repeat' split
  all_goals rfl

theorem countDown_timer (r : ReminderRecord) (v : Time) :
    (r.countDown v).timer = if r.Counts v ∧ 1 < r.timer then r.timer - 1 else r.timer := by
  by_cases h : r.Counts v
  · rw [countDown_of_counts h]
    by_cases hruns : 1 < r.timer
    · rw [if_pos hruns, if_pos ⟨h, hruns⟩]
    · rw [if_neg hruns, if_neg fun h' => hruns h'.2]
  · rw [countDown_of_not_counts h, if_neg fun h' => h h'.1]

theorem countDown_expiring {r : ReminderRecord} {v : Time} (hr : r.expiring = false) :
    (r.countDown v).expiring = true ↔ r.Counts v ∧ r.timer ≤ 1 := by
  by_cases h : r.Counts v
  · rw [countDown_of_counts h]
    by_cases hruns : 1 < r.timer
    · rw [if_pos hruns]
      exact iff_of_false (by simp [hr]) fun h' => by omega
    · rw [if_neg hruns]
      exact iff_of_true rfl ⟨h, by omega⟩
  · rw [countDown_of_not_counts h, hr]
    exact iff_of_false Bool.false_ne_true fun h' => h h'.1

/-- A record after a trigger test (R112). -/
def ReminderRecord.tested (r : ReminderRecord) (holds : Bool) : ReminderRecord :=
  if r.awaitsTrigger && holds then { r with triggered := true } else r

theorem tested_does (r : ReminderRecord) (holds : Bool) :
    r.tested holds = { r with triggered := r.triggered || (r.awaitsTrigger && holds) } := by
  unfold ReminderRecord.tested
  cases h : r.awaitsTrigger && holds <;> simp

/-- What a tick's count and its trigger test leave of a record, and the marks that they make. -/
theorem countDown_tested_does (r : ReminderRecord) (v : Time) (holds : Bool) :
    ((r.countDown v).tested holds).state = r.state ∧ ((r.countDown v).tested holds).remembered = r.remembered ∧
    ((r.countDown v).tested holds).deadline = r.deadline ∧ ((r.countDown v).tested holds).entryTime = r.entryTime ∧
    ((r.countDown v).tested holds).timer = (r.countDown v).timer ∧
    ((r.countDown v).tested holds).expiring = (r.countDown v).expiring ∧
    ((r.countDown v).tested holds).triggered = (r.triggered || (r.awaitsTrigger && holds)) := by
  rw [tested_does, countDown_does]
  exact ⟨rfl, rfl, rfl, rfl, rfl, rfl, rfl⟩

/-- The trigger tests mark the records that meet them, and read nothing that they mark (R112). -/
theorem markTriggers_does (s : State) (p : Pos) :
    s.markTriggers.ru.records[p] = s.ru.records[p].tested (s.markTriggers.triggerHolds p) := by
  have hreads : s.markTriggers.triggerHolds p = s.triggerHolds p := rfl
  rw [hreads]
  simp [State.markTriggers, ReminderRecord.tested]

/-- The record of a position after a 100 ms tick (R112, R113). -/
theorem reminderTick_record (s : State) (v : Time) (p : Pos) :
    (s.reminderTick v).ru.records[p] =
      (s.ru.records[p].countDown v).tested ((s.reminderTick v).triggerHolds p) := by
  unfold State.reminderTick
  rw [markTriggers_does]
  simp

/-- One 100 ms tick that RU takes from unmarked records (R108, R112, R113). -/
theorem hundredTicked_reminderTick {s : State} (v : Time) (rest : List Time)
    (hunmarked : ∀ p : Pos, s.ru.records[p].expiring = false ∧ s.ru.records[p].triggered = false) :
    HundredTicked s (State.reminderTick { s with tb := { s.tb with ticks100 := rest } } v) v rest := by
  let u : State := { s with tb := { s.tb with ticks100 := rest } }
  have hdoes := reminderTick_does u v
  have hcount : (u.reminderTick v).ru.ignitionCount = tickedCount s.ignitionOn s.ru.ignitionTime v s.ru.ignitionCount := by
    rw [hdoes]
    rfl
  refine ⟨?_, ?_, ?_, hcount, fun p => ?_⟩
  · change u.reminderTick v = _
    rw [hdoes]
  · change (u.reminderTick v).ru.buckles = _
    rw [hdoes]
  · change (u.reminderTick v).ru.ignitionTime = _
    rw [hdoes]
  · intro r w counts
    have hw : w = (r.countDown v).tested ((u.reminderTick v).triggerHolds p) := reminderTick_record u v p
    obtain ⟨hstate, hremembered, hdeadline, hentry, htimer, hexpiring, htriggered⟩ :=
      countDown_tested_does r v ((u.reminderTick v).triggerHolds p)
    obtain ⟨hr, hr'⟩ : r.expiring = false ∧ r.triggered = false := hunmarked p
    rw [hw, hstate, hremembered, hdeadline, hentry, htimer, hexpiring, htriggered]
    refine ⟨rfl, rfl, rfl, rfl, countDown_timer r v, countDown_expiring hr, ?_⟩
    have htrigger := triggerHolds_iff (s := u.reminderTick v) (p := p)
    have hprofile : (u.reminderTick v).profileOf p = s.profileOf p := by simp [State.profileOf, State.entry, u]
    have hspeed : (u.reminderTick v).speedReading = s.speedReading := by simp [State.speedReading, u]
    rw [hprofile, hspeed] at htrigger
    simp only [hr', Bool.false_or, Bool.and_eq_true, awaitsTrigger_iff, and_assoc]
    exact and_congr_right fun _ => and_congr_right fun _ => htrigger

/-- Settles O8: out of HOLD the oldest tick reaches RU, and in a settled step it does so after the deadline test. -/
theorem hundredMillisecondTickCountsDown : Obligations.HundredMillisecondTickCountsDown := by
  intro s v rest hs hticks hunmarked
  have htaken : s.movesTaken = true := by
    simpa [State.movesTaken] using fun p _ => hunmarked p
  refine ⟨fun hmode => ?_, fun req run hsettled => ?_, fun hmode hunsettled => ?_⟩
  · refine ⟨_, occurs_due hs (by simp [State.ticksPass, hmode, hticks, htaken]), ?_⟩
    have htake : s.takeTick100 = State.reminderTick { s with tb := { s.tb with ticks100 := rest } } v := by
      simp [State.takeTick100, hmode, hticks]
    rw [htake]
    exact hundredTicked_reminderTick v rest hunmarked
  · have htested := testDeadlines_taken hsettled
    refine ⟨_, _, occurs_due hs (by simp [ticksPass_settled hsettled, hticks, htaken]), htested, ?_⟩
    have htake : s.takeTick100 =
        State.reminderTick { s.testDeadlines with tb := { s.testDeadlines.tb with ticks100 := rest } } v := by
      simp [State.takeTick100, hsettled.1, hticks]
    rw [htake]
    refine hundredTicked_reminderTick v rest fun p => ?_
    rw [htested.2.2 p]
    split
    · exact hunmarked p
    · unfold deadlineTaken
      split
      · exact ⟨rfl, rfl⟩
      · exact hunmarked p
  · exact occurs_otherwise (.inr (by simp [ticksPass_hold hmode hunsettled]))

end Sys2Proof.Machine
end

section
/-! GRACE_DEADLINE_REACHED, and the end of a step (R39, R108, R112, R113, R116, R163). -/

namespace Sys2Proof.Machine

/-! ## GRACE_DEADLINE_REACHED -/

theorem deadlineReached_iff {r : ReminderRecord} {now d : Time} (hstate : r.state = .pending) (hd : r.deadline = some d) :
    r.deadlineReached now = true ↔ (now - d).toNat < 2 ^ 31 := by
  simp [ReminderRecord.deadlineReached, hstate, hd, reached]

/-- The deadline test may be made in RUN, and in a settled step until the step's own test (R39, R116). -/
theorem deadlineMoment_iff {s : State} :
    s.deadlineMoment = true ↔ s.mode = .run ∨ ∃ req run, s.StepSettled req run ∧ run.deadlinesTested = false := by
  unfold State.deadlineMoment
  cases hmode : s.mode with
  | run => simp
  | config => simp [State.StepSettled, hmode]
  | hold =>
    rw [Bool.and_eq_true, stepSettled_iff hmode]
    simp only [reduceCtorEq, false_or]
    constructor
    · rintro ⟨⟨req, run, hsettled⟩, huntested⟩
      obtain ⟨-, -, -, -, hservice, -⟩ := id hsettled
      exact ⟨req, run, hsettled, by simpa [State.deadlinesUntested, stepRun_of_service hservice] using huntested⟩
    · rintro ⟨req, run, hsettled, huntested⟩
      obtain ⟨-, -, -, -, hservice, -⟩ := id hsettled
      exact ⟨⟨req, run, hsettled⟩, by simp [State.deadlinesUntested, stepRun_of_service hservice, huntested]⟩

/-- A record of a new state is stored and handed on, and no other record changes (R122). -/
theorem putRecord_hands {s : State} {p : Pos} {r : ReminderRecord} (h : r.state ≠ s.ru.records[p].state) :
    s.putRecord p r = { s with
      ru := (s.putRecord p r).ru, ou := (s.putRecord p r).ou, vp := { s.vp with belt := (s.putRecord p r).vp.belt } } ∧
    (s.putRecord p r).ru = { s.ru with records := s.ru.records.set p r } ∧
    (s.putRecord p r).ou.reminders = s.ou.reminders.set p r.state ∧
    (s.putRecord p r).vp.belt.content =
      s.vp.belt.content.set p { buckle := s.ru.buckles[p].confirmed, indication := r.state.indication } := by
  obtain ⟨hru, -, -, hvp, hcopies, hbelt⟩ := putRecord_does s p r
  rw [if_neg h] at hcopies hbelt
  refine ⟨?_, hru, hcopies, hbelt⟩
  have hmoved := recordsMoved_putRecord s p r
  unfold RecordsMoved at hmoved
  rw [← hvp]
  exact hmoved.trans (by rw [hru])

/-- Settles O13: the command occurs at a moment of the test with the deadline reached, and hands the new record on. -/
theorem reachedDeadlineMovesToStageTwo : Obligations.ReachedDeadlineMovesToStageTwo := by
  intro s p d hs hstate hd moment
  refine ⟨fun hno => ?_, fun hmoment hreached => ?_, fun hearly => ?_⟩
  · refine occurs_otherwise (.inr ?_)
    rw [Bool.and_eq_false_iff, ← Bool.not_eq_true, deadlineMoment_iff]
    exact .inl hno
  · refine ⟨_, occurs_due hs ?_, putRecord_hands (r := .toStage2 _ _) (by rw [hstate]; exact nofun)⟩
    rw [Bool.and_eq_true, deadlineMoment_iff, deadlineReached_iff hstate hd]
    exact ⟨hmoment, hreached⟩
  · refine occurs_otherwise (.inr ?_)
    rw [Bool.and_eq_false_iff, ← Bool.not_eq_true (ReminderRecord.deadlineReached ..), deadlineReached_iff hstate hd]
    exact .inr (Nat.not_lt.mpr hearly)

/-! ## The ticks of a step -/

/-- No mark of the record is one that its state can take (log entry 14). -/
def ReminderRecord.MarksTaken (r : ReminderRecord) : Prop :=
  (r.state = .stage1 ∨ r.state = .stage2 → r.expiring = false) ∧ (r.awaitsTrigger = true → r.triggered = false)

theorem marksTaken_markTaken (f : Profile) (now : Time) (r : ReminderRecord) : (markTaken f now r).MarksTaken := by
  unfold markTaken ReminderRecord.MarksTaken
  simp only [awaitsTrigger_iff]
  cases hstate : r.state with
  | pending =>
    dsimp only
    split
    · exact ⟨fun _ => rfl, nofun⟩
    next hstays =>
      refine ⟨by simp [hstate], fun hawaits => ?_⟩
      rw [← Bool.not_eq_true]
      exact fun htriggered => hstays ⟨htriggered, hawaits.2⟩
  | stage1 | stage2 => dsimp only; split <;> simp_all
  | _ => simp [hstate]

theorem marksTaken_tickedRecord {r : ReminderRecord} (h : r.MarksTaken) (f : Profile) (speed : Byte) (now v : Time) (n : Nat) :
    (tickedRecord f speed now v n r).MarksTaken := by
  unfold tickedRecord ReminderRecord.MarksTaken at *
  simp only [awaitsTrigger_iff] at *
  cases hstate : r.state with
  | pending => dsimp only; split <;> simp_all
  | stage1 | stage2 => dsimp only; (repeat' split) <;> simp_all
  | _ => simp [hstate]

theorem tested_of_not_pending {r : ReminderRecord} (h : r.state ≠ .pending) (holds : Bool) : r.tested holds = r := by
  simp [ReminderRecord.tested, ReminderRecord.awaitsTrigger, h]

/-- A tick's count and trigger test, with the marks that they make taken at once, are what the rules say of the tick. -/
theorem markTaken_tested_countDown {r : ReminderRecord} (h : r.MarksTaken) (f : Profile) (speed : Byte) (now v : Time) (n : Nat)
    {holds : Bool} (hholds : holds = true ↔ triggerAt f speed n) :
    markTaken f now ((r.countDown v).tested holds) = tickedRecord f speed now v n r := by
  obtain ⟨hexpiring, htriggered⟩ := h
  cases hstate : r.state with
  | pending =>
    rw [countDown_of_not_counts (by simp [hstate])]
    simp only [tickedRecord, hstate]
    by_cases hd : r.deadline = none
    · have hr : r.triggered = false := htriggered (awaitsTrigger_iff.mpr ⟨hstate, hd⟩)
      by_cases htrigger : triggerAt f speed n
      · rw [if_pos ⟨hd, htrigger⟩]
        simp [ReminderRecord.tested, awaitsTrigger_iff.mpr ⟨hstate, hd⟩, hholds.mpr htrigger, markTaken, hstate, hd]
      · rw [if_neg fun h' => htrigger h'.2]
        have hfails : holds = false := by rwa [← Bool.not_eq_true, hholds]
        simp [ReminderRecord.tested, hfails, markTaken, hstate, hr]
    · rw [if_neg fun h' => hd h'.1]
      have hawaits : r.awaitsTrigger = false := by rw [← Bool.not_eq_true, awaitsTrigger_iff]; exact fun h' => hd h'.2
      simp [ReminderRecord.tested, hawaits, markTaken, hstate, hd]
  | stage1 | stage2 =>
    have hr : r.expiring = false := hexpiring (by simp [hstate])
    by_cases hcounts : r.Counts v
    · have hruns : decide (2 ^ 31 ≤ (r.entryTime - v).toNat) = true := decide_eq_true hcounts.2
      rw [countDown_of_counts hcounts]
      simp only [tickedRecord, hstate, hruns, if_true]
      by_cases hlast : 1 < r.timer
      · rw [if_pos hlast, if_pos hlast, tested_of_not_pending (by simp)]
        simp [markTaken, hr]
      · rw [if_neg hlast, if_neg hlast, tested_of_not_pending (by simp)]
        simp [markTaken]
    · have hstands : decide (2 ^ 31 ≤ (r.entryTime - v).toNat) = false :=
        decide_eq_false fun hafter => hcounts ⟨by simp [hstate], hafter⟩
      rw [countDown_of_not_counts hcounts, tested_of_not_pending (by simp [hstate])]
      simp only [tickedRecord, hstate, hstands]
      simp [markTaken, hstate, hr]
  | _ =>
    rw [countDown_of_not_counts (by simp [hstate]), tested_of_not_pending (by simp [hstate])]
    simp [tickedRecord, markTaken, hstate]

/-- From `s` to `t` the ignition-on counter has come to `n`, reminder records have moved, and nothing else has changed but OU and
the belt contents of VP. -/
def TicksTaken (s t : State) (n : Nat) : Prop :=
  t = { s with
    ru := { s.ru with records := t.ru.records, ignitionCount := n }, ou := t.ou, vp := { s.vp with belt := t.vp.belt } }

theorem TicksTaken.trans {s t u : State} {n m : Nat} (hst : TicksTaken s t n) (htu : TicksTaken t u m) : TicksTaken s u m := by
  unfold TicksTaken at *
  rw [htu, hst]

/-- What a 100 ms tick reads of the part, the records and the counter apart, stands over the ticks. -/
theorem tickedBy_ticksTaken {s t : State} {k : Nat} (h : TicksTaken s t k) (p : Pos) (ticks : List Time) (n : Nat)
    (r : ReminderRecord) : tickedBy t p ticks n r = tickedBy s p ticks n r := by
  unfold TicksTaken at h
  rw [h]
  rfl

theorem escalated_reminderTick (s : State) (v : Time) : Escalated s (s.reminderTick v) := by
  refine .of_same (by simp) (by rw [reminderTick_does]) (by simp) (by simp) fun p => ?_
  obtain ⟨hstate, -⟩ := countDown_tested_does s.ru.records[p] v ((s.reminderTick v).triggerHolds p)
  rw [reminderTick_record, hstate]

/-- The record of a position after a 100 ms tick of a step and the moves that it makes due (R39, R112, R113). -/
theorem stepTick_record {s : State} {p : Pos} (hmarks : s.ru.records[p].MarksTaken) (v : Time) :
    (s.reminderTick v).takeDueMoves.ru.records[p] = tickedRecord (s.profileOf p) s.speedReading s.tb.time v
      (tickedCount s.ignitionOn s.ru.ignitionTime v s.ru.ignitionCount) s.ru.records[p] := by
  have hprofile : (s.reminderTick v).profileOf p = s.profileOf p := by simp [State.profileOf, State.entry]
  have hspeed : (s.reminderTick v).speedReading = s.speedReading := by simp [State.speedReading]
  have hcount : (s.reminderTick v).ru.ignitionCount =
      tickedCount s.ignitionOn s.ru.ignitionTime v s.ru.ignitionCount := by rw [reminderTick_does]
  obtain ⟨-, -, hrecords⟩ := takeDueMoves_does (s.reminderTick v)
  rw [hrecords, reminderTick_record, hprofile, (reminderTick_frame s v).2.2.2.1]
  refine markTaken_tested_countDown hmarks _ _ _ v _ ?_
  rw [triggerHolds_iff, hprofile, hspeed, hcount]

/-- One 100 ms tick of a step, with the moves that it makes due (R39, R108, R112, R113). -/
theorem stepTick_does (s : State) (v : Time) :
    Escalated s (s.reminderTick v).takeDueMoves ∧
    TicksTaken s (s.reminderTick v).takeDueMoves (tickedCount s.ignitionOn s.ru.ignitionTime v s.ru.ignitionCount) := by
  obtain ⟨hescalated, hmoved, -⟩ := takeDueMoves_does (s.reminderTick v)
  have hport := hescalated.port
  refine ⟨(escalated_reminderTick s v).trans hescalated, ?_⟩
  unfold RecordsMoved at hmoved
  unfold TicksTaken
  rw [hmoved, hport, reminderTick_does]

/-- What a run of 100 ms ticks makes of a step's state, from records whose marks are taken (R39, R108, R112, R113). -/
theorem stepTicks_does (ticks : List Time) {s t : State} (hmarks : ∀ p : Pos, s.ru.records[p].MarksTaken)
    (ht : ticks.foldl (fun u v => (u.reminderTick v).takeDueMoves) s = t) :
    Escalated s t ∧
    TicksTaken s t (ticks.foldl (fun n v => tickedCount s.ignitionOn s.ru.ignitionTime v n) s.ru.ignitionCount) ∧
    ∀ p : Pos, t.ru.records[p] = (tickedBy s p ticks s.ru.ignitionCount s.ru.records[p]).2 := by
  induction ticks generalizing s with
  | nil =>
    subst ht
    exact ⟨.refl s, rfl, fun _ => rfl⟩
  | cons v ticks ih =>
    obtain ⟨hescalated, htaken⟩ := stepTick_does s v
    have hrecord (p : Pos) := stepTick_record (hmarks p) v
    rw [List.foldl_cons] at ht
    generalize (s.reminderTick v).takeDueMoves = u at hescalated htaken hrecord ht
    have hcount : u.ru.ignitionCount = tickedCount s.ignitionOn s.ru.ignitionTime v s.ru.ignitionCount := by rw [htaken]
    obtain ⟨hescalated', htaken', hrecords⟩ := ih (fun p => by rw [hrecord]; exact marksTaken_tickedRecord (hmarks p) ..) ht
    refine ⟨hescalated.trans hescalated', ?_, fun p => ?_⟩
    · have hreads : u.ignitionOn = s.ignitionOn ∧ u.ru.ignitionTime = s.ru.ignitionTime := by rw [htaken]; exact ⟨rfl, rfl⟩
      rw [hreads.1, hreads.2, hcount] at htaken'
      exact htaken.trans htaken'
    · rw [hrecords, tickedBy_ticksTaken htaken, hcount, hrecord]
      rfl

/-! ## The deadlines after a step -/

theorem deadlineReached_of_not_pending {r : ReminderRecord} (h : r.state ≠ .pending) (now : Time) :
    r.deadlineReached now = false := by
  simp [ReminderRecord.deadlineReached, h]

/-- A deadline test leaves no reached deadline (R116). -/
theorem deadlineReached_deadlineTaken (f : Profile) (now : Time) (r : ReminderRecord) :
    (deadlineTaken f now r).deadlineReached now = false := by
  unfold deadlineTaken
  split
  next => exact deadlineReached_of_not_pending (by simp) now
  next hstays => simpa using hstays

theorem deadlineReached_markTaken {r : ReminderRecord} {now : Time} (h : r.deadlineReached now = false) (f : Profile) :
    (markTaken f now r).deadlineReached now = false := by
  unfold markTaken
  cases r.state with
  | pending | stage1 | stage2 =>
    dsimp only
    split
    · exact deadlineReached_of_not_pending (by simp) now
    · exact h
  | _ => exact h

theorem deadlineReached_tickedRecord {r : ReminderRecord} {now : Time} (h : r.deadlineReached now = false) (f : Profile)
    (speed : Byte) (v : Time) (n : Nat) : (tickedRecord f speed now v n r).deadlineReached now = false := by
  unfold tickedRecord
  cases hstate : r.state with
  | pending =>
    dsimp only
    split
    · exact deadlineReached_of_not_pending (by simp) now
    · exact h
  | stage1 | stage2 => exact deadlineReached_of_not_pending (by dsimp only; (repeat' split) <;> simp [hstate]) now
  | _ => exact h

theorem deadlineReached_tickedBy (s : State) (p : Pos) (ticks : List Time) (n : Nat) {r : ReminderRecord}
    (h : r.deadlineReached s.tb.time = false) : (tickedBy s p ticks n r).2.deadlineReached s.tb.time = false := by
  induction ticks generalizing n r with
  | nil => exact h
  | cons v ticks ih => exact ih _ (deadlineReached_tickedRecord h ..)

/-! ## The end of a step -/

/-- The 10 ms ticks of a step move nothing (R126, R128). -/
theorem handTicks10_hold {s : State} (hmode : s.mode = .hold) :
    s.handTicks10 = { s with tb := { s.tb with ticks10 := [] } } := by
  have hstands (ticks : List Time) {t : State} (ht : t.mode = .hold) : ticks.foldl State.outputTick t = t := by
    induction ticks with
    | nil => rfl
    | cons v ticks ih => rwa [List.foldl_cons, outputTick_other v (by simp [ht])]
  exact hstands _ hmode

/-- The 100 ms ticks of a step, with their moves, from records whose marks are taken (R39, R108, R112, R113). -/
theorem handTicks100_does {s : State} (hmarks : ∀ p : Pos, s.ru.records[p].MarksTaken) :
    Escalated s s.handTicks100 ∧
    TicksTaken { s with tb := { s.tb with ticks100 := [] } } s.handTicks100
      (s.tb.ticks100.foldl (fun n v => tickedCount s.ignitionOn s.ru.ignitionTime v n) s.ru.ignitionCount) ∧
    ∀ p : Pos, s.handTicks100.ru.records[p] = (tickedBy s p s.tb.ticks100 s.ru.ignitionCount s.ru.records[p]).2 := by
  have htaken : Escalated s { s with tb := { s.tb with ticks100 := [] } } := .of_same rfl rfl rfl rfl fun _ => rfl
  obtain ⟨hescalated, hticks, hrecords⟩ :=
    stepTicks_does s.tb.ticks100 (s := { s with tb := { s.tb with ticks100 := [] } }) hmarks rfl
  exact ⟨htaken.trans hescalated, hticks, hrecords⟩

/-- The record of a position before the ticks of its step: the deadline test is made, unless it was, and a mark is taken (R116). -/
def recordBeforeTicks (s : State) (run : StepRun) (p : Pos) : ReminderRecord :=
  markTaken (s.profileOf p) s.tb.time
    (if run.deadlinesTested = true then s.ru.records[p] else deadlineTaken (s.profileOf p) s.tb.time s.ru.records[p])

/-- The deadline test of a step, with the moves that are due then (R112, R113, R116). -/
theorem dueMoves_testDeadlines {s : State} {req : RequestRecord} {run : StepRun}
    (hservice : s.mu.service = some { req, work := .stepping run }) :
    Escalated s s.testDeadlines.takeDueMoves ∧
    s.testDeadlines.takeDueMoves = { s with
      ru := { s.ru with records := s.testDeadlines.takeDueMoves.ru.records }
      ou := s.testDeadlines.takeDueMoves.ou
      vp := { s.vp with belt := s.testDeadlines.takeDueMoves.vp.belt }
      mu := { s.mu with service := some { req, work := .stepping { run with deadlinesTested := true } } } } ∧
    ∀ p : Pos, s.testDeadlines.takeDueMoves.ru.records[p] = recordBeforeTicks s run p := by
  obtain ⟨htestEscalated, htest, htested⟩ := testDeadlines_does hservice
  obtain ⟨hdueEscalated, hdue, hmarks⟩ := takeDueMoves_does s.testDeadlines
  have hescalated := htestEscalated.trans hdueEscalated
  refine ⟨hescalated, ?_, fun p => ?_⟩
  · have hport := hescalated.port
    unfold RecordsMoved at hdue
    rw [← hport]
    generalize s.testDeadlines.takeDueMoves = b at *
    rw [hdue, htest]
  · rw [hmarks, htested, htest]
    rfl

/-- A settled step ends (R39, R108, R112, R113, R116). -/
theorem endStep_ends {s : State} {req : RequestRecord} {run : StepRun} (h : s.StepSettled req run) :
    StepEnded s s.endStep req run := by
  obtain ⟨hmode, -, -, -, hservice, -⟩ := h
  obtain ⟨hescalated, hmoves, hrecords⟩ := dueMoves_testDeadlines hservice
  have hend : s.endStep = s.testDeadlines.takeDueMoves.handTicks10.handTicks100.mapStep
    fun run => { run with inStep := false } := rfl
  rw [handTicks10_hold (by simp [hmode])] at hend
  generalize s.testDeadlines.takeDueMoves = b at *
  obtain ⟨hescalated', hticks, hrecords'⟩ := handTicks100_does (s := { b with tb := { b.tb with ticks10 := [] } })
    fun p => by rw [hrecords]; exact marksTaken_markTaken ..
  generalize State.handTicks100 _ = d at *
  have hpart : d = { s with
      tb := { s.tb with ticks10 := [], ticks100 := [] }
      ru := { s.ru with
        records := d.ru.records
        ignitionCount := s.tb.ticks100.foldl (fun n v => tickedCount s.ignitionOn s.ru.ignitionTime v n) s.ru.ignitionCount }
      ou := d.ou, vp := { s.vp with belt := d.vp.belt }
      mu := { s.mu with service := some { req, work := .stepping { run with deadlinesTested := true } } } } := by
    unfold TicksTaken at hticks
    rw [hticks, hmoves]
    rfl
  rw [mapStep_of_service (by rw [hpart])] at hend
  have hescalatedAll : Escalated s s.endStep := by
    have hticks10 : Escalated b { b with tb := { b.tb with ticks10 := [] } } := .of_same rfl rfl rfl rfl fun _ => rfl
    rw [hend]
    exact ((hescalated.trans hticks10).trans hescalated').trans (.of_same rfl rfl rfl rfl fun _ => rfl)
  have hrecord (p : Pos) :
      s.endStep.ru.records[p] = (tickedBy s p s.tb.ticks100 s.ru.ignitionCount (recordBeforeTicks s run p)).2 := by
    rw [hend]
    refine (hrecords' p).trans ?_
    rw [hrecords, hmoves]
    rfl
  refine ⟨?_, escalated_handedOn hescalatedAll, ?_, fun p => ⟨hrecord p, fun huntested => ?_⟩⟩
  · rw [hend, hpart]
  · rw [hend, hpart]
  · rw [hescalatedAll.time, hrecord]
    refine deadlineReached_tickedBy s p _ _ (deadlineReached_markTaken ?_ _)
    rw [if_neg (by simp [huntested])]
    exact deadlineReached_deadlineTaken ..

/-- Samples of the quiet line leave a settled step settled. -/
theorem stepSettled_putLine {s : State} {req : RequestRecord} {run : StepRun} (line : Samples) (h : s.StepSettled req run) :
    State.StepSettled { s with lc := line.foldl LineController.tick s.lc } req run := by
  obtain ⟨hmode, hidle, hwe, hqueue, hservice, hin⟩ := h
  exact ⟨hmode, LineController.foldl_tick_idle line hidle, hwe, hqueue, hservice, hin⟩

/-- A settled step ends; then the STEP has its answer, or the next step begins (R39, R163). -/
theorem goOn_settled {s : State} {req : RequestRecord} {run : StepRun} (h : s.StepSettled req run) :
    s.goOn = if run.remaining = 0 then s.endStep.finish (okay (wordOf run.count)) else s.endStep.beginStep := by
  obtain ⟨hended, -⟩ := endStep_ends h
  have hrun : s.endStep.stepRun = some { run with inStep := false, deadlinesTested := true } := by
    rw [hended]
    exact stepRun_of_service rfl
  simp [State.goOn, (stepSettled_iff h.1).mpr ⟨req, run, h⟩, hrun]

/-- Settles O10: a settled step ends with its deadlines, marks and ticks, and what is left of the STEP decides what follows. -/
theorem stepAdvanceEndsTheLastStep : Obligations.StepAdvanceEndsTheLastStep := by
  refine ⟨fun s line req run hs h => ?_, fun s line req run hmode hservice hin h => ?_⟩
  · have hready : s.stepReady = true := by simp [State.stepReady, (stepSettled_iff h.1).mpr ⟨req, run, h⟩]
    have hsettled := stepSettled_putLine line h
    have hended := endStep_ends hsettled
    refine ⟨_, _, hended, exec_stepAdvance line hs h.2.1 hready, ?_⟩
    rw [show s.putLine _ = { s with lc := line.foldl LineController.tick s.lc } from rfl, goOn_settled hsettled]
    generalize State.endStep _ = u at hended ⊢
    obtain ⟨hu, -⟩ := hended
    have hservice : u.mu.service =
        some { req, work := .stepping { run with inStep := false, deadlinesTested := true } } := by rw [hu]
    have hrun := stepRun_of_service hservice
    refine ⟨fun hlast => ?_, fun hleft => ?_⟩
    · rw [if_pos hlast, hu]
      rfl
    · have hleft' : run.remaining ≠ 0 := hleft.ne'
      have hidle : u.lc.poll = none := by
        rw [hu]
        exact hsettled.2.1
      rw [if_neg hleft', ← goOn_begins hrun rfl hleft']
      exact exec_stepAdvance [] (by rw [hu]; exact hs) hidle (by simp [State.stepReady, hrun])
  · have hunsettled : s.stepSettled = false := by
      rw [← Bool.not_eq_true, stepSettled_iff hmode]
      rintro ⟨req', run', h'⟩
      obtain ⟨-, -, -, -, hservice', -⟩ := id h'
      have hsame := hservice.symm.trans hservice'
      simp only [Option.some.injEq, Service.mk.injEq, Work.stepping.injEq] at hsame
      obtain ⟨rfl, rfl⟩ := hsame
      exact h h'
    have hwaits : s.stepReady = false := by simp [State.stepReady, hunsettled, stepRun_of_service hservice, hin]
    change execStepAdvance s line = _
    unfold execStepAdvance afterLine
    split
    · exact occurs_otherwise (.inr hwaits)
    · rfl

end Sys2Proof.Machine
end

section
/-! Requests: what the bytes of a request frame spell, and REIDENTIFY (R43, R150, R162). -/

namespace Sys2Proof.Machine

/-! ## A request frame -/

/-- The two bytes of a word, low byte first, spell the word again (R150). -/
theorem bytes_append (v : Word) : (v >>> (8 : Nat)).setWidth 8 ++ v.setWidth 8 = v := by
  ext i hi
  simp only [BitVec.getElem_append, BitVec.getElem_setWidth, BitVec.getLsbD_ushiftRight]
  split
  · simp [hi]
  · rw [Nat.add_sub_cancel' (by omega)]
    simp [hi]

/-- The kind of a request frame is the high nibble of its echo (R150). -/
theorem kindNibble_requestFrame (base : BitVec 11) {rec : RequestRecord} {k : Nat} (hkind : rec.ofKind k) :
    kindNibble (requestFrame base rec).data = k := hkind.1

theorem isKind_requestFrame (base : BitVec 11) {rec : RequestRecord} {k : Nat} (hkind : rec.ofKind k) :
    isKind (requestFrame base rec).data k = true := by
  simp only [isKind, kindNibble_requestFrame base hkind, beq_self_eq_true, Bool.and_true]
  rfl

theorem malformedData_requestFrame (base : BitVec 11) {rec : RequestRecord} {k : Nat} (hkind : rec.ofKind k)
    (hk : 1 ≤ k ∧ k ≤ 7) : malformedData (requestFrame base rec).data = false := by
  simp only [malformedData, kindNibble_requestFrame base hkind, Bool.or_eq_false_iff, bne_eq_false_iff_eq, beq_eq_false_iff_ne,
    decide_eq_false_iff_not]
  exact ⟨⟨rfl, by omega⟩, by omega⟩

/-- The frame of a request spells its record (R150, R175). -/
theorem requestRecord_requestFrame (base : BitVec 11) {rec : RequestRecord} {k : Nat} (hkind : rec.ofKind k) :
    requestRecord rec.level (requestFrame base rec).data = rec := by
  obtain ⟨hnibble, hrec, htag⟩ := hkind
  obtain ⟨level, echo, kind, tag, id, entry, word, value, mask⟩ := rec
  dsimp only at hnibble hrec htag
  subst hrec htag
  simp only [requestRecord, malformedRecord, kindNibble, wordAt, byteAt, requestFrame, List.getD_cons_zero, List.getD_cons_succ,
    bytes_append, hnibble]

/-- The identifier of a request frame tells its level (R150). -/
theorem requestLevel_requestFrame {vp : VehiclePort} (hbus : vp.busOff = false) (rec : RequestRecord) :
    vp.requestLevel (requestFrame vp.base rec) = some rec.level := by
  have hdistinct : vp.base + 1 ≠ vp.base := by bv_omega
  unfold VehiclePort.requestLevel requestFrame
  cases rec.level <;> simp [hbus]

/-- A request frame at an IDLE MU is served (R150, R151). -/
theorem onRequest_served {s : State} {rec : RequestRecord} {k : Nat} {row : Bool} (hserves : s.serves) (hkind : rec.ofKind k)
    (hk : 1 ≤ k ∧ k ≤ 7) (hrow : row = true) :
    onRequest s (requestFrame s.vp.base rec) row =
      .next (s.thenInputs (requestFrame s.vp.base rec) ((s.serve rec).1.serving rec (s.serve rec).2)) := by
  obtain ⟨hpower, hbus, hidle⟩ := hserves
  rw [onRequest_next hpower (requestLevel_requestFrame hbus rec) hrow]
  simp only [State.handRequest, hidle]
  rw [accept_served (malformedData_requestFrame _ hkind hk), requestRecord_requestFrame _ hkind]

/-! ## REIDENTIFY -/

theorem exec_reidentify {s : State} {rec : RequestRecord} (hserves : s.serves) (hkind : rec.ofKind 6) :
    exec ((requestFrame s.vp.base rec).under .reidentify) s = .next (s.thenInputs (requestFrame s.vp.base rec)
      ((s.serveReidentify rec).1.serving rec (s.serveReidentify rec).2)) := by
  have hserve : s.serve rec = s.serveReidentify rec := by simp only [State.serve, hkind.2.1]
  rw [← hserve]
  exact onRequest_served hserves hkind (by decide) (isKind_requestFrame _ hkind)

/-- A station number of 1 to 8 names its station (R178). -/
theorem stationOf_succ (st : Station) : stationOf (st.val + 1) = some st := by
  revert st
  decide

/-- In CONFIG no station is queued, and a number outside 1 to 8 names none (R162). -/
theorem serveReidentify_refused {s : State} {rec : RequestRecord} :
    (s.mode = .config → s.serveReidentify rec = (s, refusal .mode)) ∧
    (s.mode ≠ .config → rec.entry = 0 ∨ 8 < rec.entry.toNat → s.serveReidentify rec = (s, refusal .range)) := by
  unfold State.serveReidentify
  refine ⟨fun hmode => if_pos hmode, fun hmode hrange => ?_⟩
  rw [if_neg hmode]
  rcases hrange with hzero | hbeyond
  · simp [hzero, stationOf]
  · simp only [hbeyond, if_true]
    split <;> rfl

/-- Elsewhere a station is merged, refused, or queued (R43, R162). -/
theorem serveReidentify_station {s : State} {rec : RequestRecord} {st : Station} (hmode : s.mode ≠ .config)
    (hst : rec.entry.toNat = st.val + 1) :
    s.serveReidentify rec =
      if st ∈ s.ps.onDemand then (s, okay (wordOf rec.entry.toNat) 1)
      else if 4 ≤ s.ps.onDemand.length then (s, refusal .queueFull)
      else ({ s with ps := { s.ps with onDemand := s.ps.onDemand ++ [st] } }, okay (wordOf rec.entry.toNat)) := by
  have hrange : ¬ 8 < st.val + 1 := by omega
  simp [State.serveReidentify, hmode, hst, stationOf_succ, hrange]

/-- Settles O50, by what REIDENTIFY makes of the mode, the number and the queue. -/
theorem reidentifyQueuesMergesOrRefuses : Obligations.ReidentifyQueuesMergesOrRefuses := by
  intro s rec hserves hkind f answered
  have hexec := exec_reidentify hserves hkind
  obtain ⟨hconfig, hrange⟩ := serveReidentify_refused (s := s) (rec := rec)
  refine ⟨fun hmode => ?_, fun hmode hentry => ?_, fun hmode st hst => ?_⟩
  · exact hexec.trans (by rw [hconfig hmode]; rfl)
  · exact hexec.trans (by rw [hrange hmode hentry]; rfl)
  · rw [serveReidentify_station hmode hst] at hexec
    have hdata : rec.entry.setWidth 16 = wordOf rec.entry.toNat := by simp [wordOf, BitVec.ofNat_toNat]
    rw [hdata]
    refine ⟨fun hwaits => ?_, fun hnew hfull => ?_, fun hnew hroom => ?_⟩
    · exact hexec.trans (by rw [if_pos hwaits]; rfl)
    · exact hexec.trans (by rw [if_neg hnew, if_pos hfull]; rfl)
    · exact hexec.trans (by rw [if_neg hnew, if_neg (Nat.not_le.mpr hroom)]; rfl)

end Sys2Proof.Machine
end

section
/-! RESET_RUNTIME (R16, R46, R49, R64, R84, R103, R123, R143 to R145, R165, R172, R174). -/

namespace Sys2Proof.Machine

/-! ## The store at its reset state -/

/-- A run of clears of SAMPLE_LOSS changes CL's records and VP's quality content alone. -/
theorem forEach_clearSampleLoss (xs : List Pos) {s t : State}
    (ht : forEach xs (fun p u => u.setQuality p fun q => { q with sampleLoss := false }) s = t) :
    t = { s with cl := t.cl, vp := { s.vp with quality := t.vp.quality } } ∧
    ∀ p : Pos, t.cl[p] =
      if p ∈ xs then { s.cl[p] with quality := { s.cl[p].quality with sampleLoss := false } } else s.cl[p] := by
  induction xs generalizing s with
  | nil =>
    obtain rfl : s = t := ht
    exact ⟨rfl, fun _ => rfl⟩
  | cons q xs ih =>
    obtain ⟨hframe, hcl⟩ := ih (s := s.setQuality q fun f => { f with sampleLoss := false }) ht
    obtain ⟨hset, -, -⟩ := setQuality_does s q fun f => { f with sampleLoss := false }
    refine ⟨hframe, fun p => ?_⟩
    rw [hcl, hset]
    by_cases hp : p = q
    · subst hp
      simp [upd]
    · have hne : ¬ q.val = p.val := fun e => hp (Fin.ext e.symm)
      simp [upd, hp, hne]

/-- SS takes its reset state, and SAMPLE_LOSS is clear at every position (R64). -/
theorem resetStore_does (s : State) :
    s.resetStore = { s with ss := s.ss.clear, cl := s.resetStore.cl, vp := { s.vp with quality := s.resetStore.vp.quality } } ∧
    ∀ p : Pos, s.resetStore.cl[p] = { s.cl[p] with quality := { s.cl[p].quality with sampleLoss := false } } := by
  obtain ⟨hframe, hcl⟩ := forEach_clearSampleLoss allPos (s := { s with ss := s.ss.clear }) rfl
  exact ⟨hframe, fun p => (hcl p).trans (if_pos (mem_allPos p))⟩

/-- A quality update that changes no flag changes nothing (R95, R140). -/
theorem setQuality_same {s : State} {p : Pos} {f : Quality → Quality} (hsame : f s.cl[p].quality = s.cl[p].quality)
    (hheld : s.vp.quality.content[p] = s.cl[p].quality) : s.setQuality p f = s := by
  have hcl : upd s.cl p (fun r => { r with quality := s.cl[p].quality }) = s.cl := Vector.set_getElem_self ..
  have hcontent : s.vp.quality.content.set p s.cl[p].quality = s.vp.quality.content := by
    rw [← hheld]
    exact Vector.set_getElem_self ..
  simp only [State.setQuality, State.handQuality, hsame, hcl, hcontent, Report.hand, if_true]

/-- Where no flag of SAMPLE_LOSS is set and VP holds the flags of CL, a reset of SS changes SS alone (R64). -/
theorem resetStore_of_clear {s : State} (hclear : ∀ p : Pos, s.cl[p].quality.sampleLoss = false)
    (hheld : ∀ p : Pos, s.vp.quality.content[p] = s.cl[p].quality) : s.resetStore = { s with ss := s.ss.clear } := by
  refine forEach_induction (· = { s with ss := s.ss.clear }) allPos _ _ rfl fun p t ht => ?_
  subst ht
  refine setQuality_same ?_ (hheld p)
  have hp := hclear p
  change ({ s.cl[p].quality with sampleLoss := false } : Quality) = s.cl[p].quality
  rw [← hp]

theorem storeReset_of_clear {s t : State} (h : t.ss = s.ss.clear) : StoreReset s t := by
  unfold StoreReset
  rw [h]
  exact ⟨rfl, fun b => by simp [SampleStore.clear, linkedInOrder]⟩

/-! ## What RESET_RUNTIME resets at once -/

/-- New content is handed to VP; besides it only the due mark can change (R141). -/
theorem Report.hand_eq {κ : Type} [DecidableEq κ] (r : Report κ) (c : κ) (period gap : Nat) :
    r.hand c period gap = { r with content := c, due := (r.hand c period gap).due } := by
  obtain ⟨hcontent, hsent, helapsed, hpending⟩ := r.hand_does c period gap
  generalize r.hand c period gap = u at *
  cases u
  simp_all

/-- An event at an empty queue goes to the slot, or waits behind the slot's event (R144, R145). -/
theorem VehiclePort.enqueue_of_empty {vp : VehiclePort} (h : vp.eventQueue = []) (r : EventRecord) :
    vp.enqueue r = { vp with
      eventSlot := some (vp.eventSlot.getD r), eventQueue := if vp.eventSlot = none then [] else [r] } := by
  unfold VehiclePort.enqueue
  rw [if_pos (by simp [h]), VehiclePort.refill_does]
  cases hslot : vp.eventSlot <;> simp [h]

/-- The EVENT slot is emptied unless its frame is on the wire (R145, R149). -/
theorem VehiclePort.resetRuntime_slot (vp : VehiclePort) :
    vp.resetRuntime.eventSlot = if vp.wire.map Attempt.payload = some .event then vp.eventSlot else none := by
  cases hwire : vp.wire <;> simp [VehiclePort.resetRuntime, hwire]

/-- What is reported of an airbag-relevant position after a RESET_RUNTIME (R84, R96). -/
def State.blankEntry (s : State) (p : Pos) : SuppEntry :=
  { pos := p, state := (s.blankClass p).suppression, cls := s.blankClass p }

/-- The part with the records of a RESET_RUNTIME, before CL and RU hand their contents on and the mode changes (R172). -/
def State.recordsReset (s : State) : State :=
  { s with
    ps := {}, sm := {}, cl := Vector.ofFn fun p => s.freshRecord p, ru := { ignitionTime := s.tb.time }
    ou := { overrides := s.ou.clearEnables.overrides }, vp := s.vp.resetRuntime }

theorem resetRuntime_eq (s : State) :
    s.resetRuntime = s.recordsReset.handResetContents.giveSuppression.enterMode .config := rfl

theorem suppEntry_recordsReset (s : State) : s.recordsReset.handResetContents.suppEntry = s.blankEntry := by
  funext p
  simp [State.suppEntry, State.recordsReset, State.blankEntry, State.freshRecord]

/-- OU after a RESET_RUNTIME: its copy of position A's suppression state is the one that CL hands it (R96, R123). -/
theorem resetRuntime_ou (s : State) :
    s.resetRuntime.ou = { overrides := s.ou.clearEnables.overrides
                          suppA := (s.tables.positionA.map s.blankEntry).map SuppEntry.state } := by
  obtain ⟨hou, -⟩ := giveSuppression_does s.recordsReset.handResetContents
  have hkept : s.recordsReset.handResetContents.ou = s.recordsReset.ou := by simp
  have hentered : s.resetRuntime.ou = s.recordsReset.handResetContents.giveSuppression.ou := by simp [resetRuntime_eq]
  rw [hentered, hou, suppEntry_recordsReset, hkept]
  simp [State.recordsReset]

theorem giveSuppression_vp (s : State) :
    s.giveSuppression.vp = { s.vp with
      suppression := s.vp.suppression.hand
        { a := s.tables.positionA.map s.suppEntry, b := s.tables.positionB.map s.suppEntry } suppressionPeriod suppressionGap } :=
  rfl

theorem handResetContents_vp (s : State) :
    s.handResetContents.vp = { s.vp with
      cls := s.vp.cls.hand (Vector.ofFn fun p => s.cl[p].committed) s.statusPeriod statusGap
      belt := s.vp.belt.hand (Vector.replicate 16 {}) s.statusPeriod statusGap
      quality := s.vp.quality.hand (Vector.replicate 16 {}) s.statusPeriod statusGap } := rfl

/-- VP after a RESET_RUNTIME (R84, R103, R143 to R145, R149). -/
theorem resetRuntime_vp (s : State) :
    let slot := if s.vp.wire.map Attempt.payload = some .event then s.vp.eventSlot else none
    let changed : EventRecord :=
      { kind := .modeChanged, subject := 0, detail0 := 0, detail1 := 0, stamp := s.tb.time.setWidth 24, lost := false }
    s.resetRuntime.vp = { s.vp with
      rolling := 0, wire := s.vp.wire.map fun a => { a with resetSince := true }
      eventSlot := some (slot.getD changed), eventQueue := if slot = none then [] else [changed]
      suppression := s.vp.suppression.hand
        { a := s.tables.positionA.map s.blankEntry, b := s.tables.positionB.map s.blankEntry } suppressionPeriod suppressionGap
      cls := s.vp.cls.hand (Vector.ofFn s.blankClass) s.statusPeriod statusGap
      belt := s.vp.belt.hand (Vector.replicate 16 {}) s.statusPeriod statusGap
      quality := s.vp.quality.hand (Vector.replicate 16 {}) s.statusPeriod statusGap } := by
  intro slot changed
  have hslot : s.vp.resetRuntime.eventSlot = slot := s.vp.resetRuntime_slot
  have hgiven : s.recordsReset.handResetContents.giveSuppression.vp = { s.vp.resetRuntime with
      suppression := s.vp.suppression.hand
        { a := s.tables.positionA.map s.blankEntry, b := s.tables.positionB.map s.blankEntry } suppressionPeriod suppressionGap
      cls := s.vp.cls.hand (Vector.ofFn s.blankClass) s.statusPeriod statusGap
      belt := s.vp.belt.hand (Vector.replicate 16 {}) s.statusPeriod statusGap
      quality := s.vp.quality.hand (Vector.replicate 16 {}) s.statusPeriod statusGap } := by
    have hcls : (Vector.ofFn fun p : Pos => s.recordsReset.cl[p].committed) = Vector.ofFn s.blankClass := by
      simp [State.recordsReset, State.freshRecord]
    have htables : s.recordsReset.handResetContents.tables = s.tables := by simp [State.recordsReset]
    have hport : s.recordsReset.vp = s.vp.resetRuntime := rfl
    have hperiod : s.recordsReset.statusPeriod = s.statusPeriod := rfl
    rw [giveSuppression_vp, suppEntry_recordsReset, htables, handResetContents_vp, hcls, hport, hperiod]
    simp only [VehiclePort.resetRuntime]
  have hqueued : s.resetRuntime.vp = s.recordsReset.handResetContents.giveSuppression.vp.enqueue changed := rfl
  rw [hqueued, hgiven, VehiclePort.enqueue_of_empty rfl]
  dsimp only
  rw [hslot]
  rfl

/-- What a RESET_RUNTIME resets at once (R172). -/
theorem resetRuntime_does (s : State) : RuntimeReset s s.resetRuntime := by
  have hframe := resetRuntime_frame s
  refine ⟨?_, fun st => ⟨?_, fun q => ?_⟩, fun p => ?_, ?_, ?_, fun i => ?_, ?_⟩
  · have hps : s.resetRuntime.ps = {} := by simp [State.resetRuntime]
    have hmode : s.resetRuntime.mode = .config := rfl
    generalize s.resetRuntime = t at hframe hmode hps ⊢
    cases t
    simp_all
  · simp [State.resetRuntime]
  · simp [State.resetRuntime]
  · have hcl : s.resetRuntime.cl[p] = s.freshRecord p := by simp [State.resetRuntime]
    rw [hcl]
    rfl
  · simp [State.resetRuntime]
  · rw [resetRuntime_ou, Option.map_map]
    rfl
  · rw [resetRuntime_ou]
    simp [OutputUnit.clearEnables]
  · have hvp := resetRuntime_vp s
    dsimp only at hvp
    have hsuppression := s.vp.suppression.hand_eq
      { a := s.tables.positionA.map s.blankEntry, b := s.tables.positionB.map s.blankEntry } suppressionPeriod suppressionGap
    have hcls := s.vp.cls.hand_eq (Vector.ofFn s.blankClass) s.statusPeriod statusGap
    have hbelt := s.vp.belt.hand_eq (Vector.replicate 16 {}) s.statusPeriod statusGap
    have hquality := s.vp.quality.hand_eq (Vector.replicate 16 {}) s.statusPeriod statusGap
    generalize Report.hand s.vp.suppression _ _ _ = suppression at *
    generalize Report.hand s.vp.cls _ _ _ = cls at *
    generalize Report.hand s.vp.belt _ _ _ = belt at *
    generalize Report.hand s.vp.quality _ _ _ = quality at *
    rw [hvp]
    dsimp only
    rw [hsuppression, hcls, hbelt, hquality]
    rfl

/-- SS, MU's request and the change in progress are apart from what is reset at once (R172). -/
theorem RuntimeReset.of_rest {s t : State} (h : RuntimeReset s t) (change : Change) (ss : SampleStore) (mu : ManagementUnit) :
    RuntimeReset s { t with change, ss, mu } := by
  obtain ⟨hframe, hrest⟩ := h
  exact ⟨by rw [hframe], hrest⟩

/-- Where no evaluation is in flight, SS is reset in the same command: the flags of SAMPLE_LOSS are clear by then (R64, log
entry 39). -/
theorem resetStore_resetRuntime (s : State) : s.resetRuntime.resetStore = { s.resetRuntime with ss := s.ss.clear } := by
  obtain ⟨-, -, hcl, -, -, -, hvp⟩ := resetRuntime_does s
  have hclear (p : Pos) : s.resetRuntime.cl[p].quality = {} := by rw [hcl]
  rw [resetStore_of_clear (fun p => by rw [hclear]) fun p => by rw [hclear, hvp]; simp]
  simp

/-! ## RESET_RUNTIME and the completion that it waits for -/

theorem exec_resetRuntime {s : State} {rec : RequestRecord} (hserves : s.serves) (hkind : rec.ofKind 7) :
    exec ((requestFrame s.vp.base rec).under .resetRuntime) s = .next (s.thenInputs (requestFrame s.vp.base rec)
      ((s.serveReset rec).1.serving rec (s.serveReset rec).2)) := by
  have hserve : s.serve rec = s.serveReset rec := by simp only [State.serve, hkind.2.1]
  rw [← hserve]
  exact onRequest_served hserves hkind (by decide) (isKind_requestFrame _ hkind)

/-- RESET_RUNTIME on the service identifier (R64, R165, R172). -/
theorem serveReset_service {s : State} {rec : RequestRecord} (hlevel : rec.level = .service) :
    s.serveReset rec =
      if s.speedReading ≠ 0 then (s, refusal .moving)
      else if s.we = none then ({ s.resetRuntime with ss := s.ss.clear }, okay 0)
      else ({ s.resetRuntime with change := .resetSettling }, .changing) := by
  simp [State.serveReset, hlevel, State.moving, State.weIdle, resetStore_resetRuntime]

/-- The completion that a RESET_RUNTIME has waited for resets SS, and the answer is OK (R64, R172). -/
theorem settleReset_does {s : State} {rec : RequestRecord} (hservice : s.mu.service = some { req := rec, work := .changing }) :
    StoreReset s s.settleReset ∧
    s.settleReset = { s with
      we := none, change := .none, ss := s.settleReset.ss, cl := s.settleReset.cl
      vp := { s.vp with quality := s.settleReset.vp.quality }
      mu := { s.mu with service := some { req := rec, work := .result { status := .ok, data := 0 } } } } ∧
    ∀ p : Pos, s.settleReset.cl[p] = { s.cl[p] with quality := { s.cl[p].quality with sampleLoss := false } } := by
  obtain ⟨hreset, hcl⟩ := resetStore_does { s with we := none, change := .none }
  have hsettle : s.settleReset = (State.resetStore { s with we := none, change := .none }).finish (okay 0) := rfl
  generalize State.resetStore { s with we := none, change := .none } = t at hreset hcl hsettle
  have hss : t.ss = s.ss.clear := by rw [hreset]
  have hmu : t.mu = s.mu := by rw [hreset]
  rw [hsettle]
  refine ⟨storeReset_of_clear hss, ?_, hcl⟩
  unfold State.finish
  rw [hmu, hservice, hreset]
  rfl

/-- Settles O51: the resets at once are one state, to which a reset of SS adds only SS and the flags of SAMPLE_LOSS. -/
theorem resetRuntimeKeepsTheTables : Obligations.ResetRuntimeKeepsTheTables := by
  refine ⟨fun s rec hserves hkind hlevel => ?_, fun s e rec hs hwe hchange hservice => ?_⟩
  · intro f
    have hexec := exec_resetRuntime hserves hkind
    rw [serveReset_service hlevel] at hexec
    refine ⟨fun hmoving => ?_, fun hstands => ?_⟩
    · rw [if_pos hmoving] at hexec
      exact hexec
    · rw [if_neg (not_not.mpr hstands)] at hexec
      have hmu : s.resetRuntime.mu = s.mu := by simp
      have hss : s.resetRuntime.ss = s.ss := by simp
      have hkept : s.resetRuntime.change = s.change := by simp
      have hdoes := resetRuntime_does s
      generalize s.resetRuntime = t at *
      by_cases hidle : s.we = none
      · rw [if_pos hidle] at hexec
        dsimp only at hexec
        refine ⟨_, hexec, hdoes.of_rest .., ?_, fun _ => ?_, (absurd hidle ·)⟩
        · rw [if_pos hidle, ← hmu]
          rfl
        · exact ⟨by simp only [State.serving, hkept], storeReset_of_clear (by simp only [State.serving])⟩
      · rw [if_neg hidle] at hexec
        refine ⟨_, hexec, hdoes.of_rest .., ?_, (absurd · hidle), fun _ => ⟨rfl, hss⟩⟩
        rw [if_neg hidle, ← hmu]
        rfl
  · refine ⟨s.settleReset, ?_, settleReset_does hservice⟩
    change execEvaluationCompletion s = _
    unfold execEvaluationCompletion
    rw [hwe]
    dsimp only
    rw [if_pos hchange]
    exact occurs_due hs rfl

end Sys2Proof.Machine
end

section
/-! EVALUATION_START, and the completion of an evaluation whose epoch has changed (R57, R60, R61, R65, R67 to R69). -/

namespace Sys2Proof.Machine

/-! ## The moment of the start -/

/-- The evaluation phase of a STEP: the step has begun, its poll has ended, and its deadlines are not yet tested (R39, R65). -/
theorem inEvaluationPhase_iff {s : State} : s.inEvaluationPhase = true ↔
    s.mode = .hold ∧ s.lc.poll = none ∧ ∃ req count left,
      s.mu.service = some { req, work := .stepping { count, remaining := left, inStep := true, deadlinesTested := false } } := by
  constructor
  · intro h
    simp only [State.inEvaluationPhase, State.lineIdle, Bool.and_eq_true, beq_iff_eq, Option.isNone_iff_eq_none] at h
    obtain ⟨⟨hmode, hpoll⟩, hphase⟩ := h
    cases hrun : s.stepRun with
    | none => simp [hrun] at hphase
    | some run =>
      obtain ⟨req, hservice⟩ := stepRun_eq_some hrun
      obtain ⟨count, left, inStep, tested⟩ := run
      obtain ⟨rfl, rfl⟩ : inStep = true ∧ tested = false := by simpa [hrun] using hphase
      exact ⟨hmode, hpoll, req, count, left, hservice⟩
  · rintro ⟨hmode, hpoll, req, count, left, hservice⟩
    simp [State.inEvaluationPhase, State.lineIdle, hmode, hpoll, stepRun_of_service hservice]

/-- When WE may take the head of the queue (R57, R65, log entry 26). -/
theorem mayEvaluate_iff {s : State} : s.mayEvaluate = true ↔
    s.we = none ∧ (s.mode = .run ∨ s.inEvaluationPhase = true) ∧ s.change ≠ .configWaiting true := by
  simp [State.mayEvaluate, State.weIdle, Change.entryDue, and_assoc]

/-- EVALUATION_START with WE free to take a position and one in the queue. -/
theorem exec_evaluationStart {s : State} (hs : s.power = .on) (hmay : s.mayEvaluate = true) (hqueue : s.ss.evalQueue ≠ []) :
    exec .evaluationStart s = .next (s.takeHead s.ss.evalQueue) := by
  change occurs s _ s.startEvaluation = _
  exact occurs_due hs (by simp [hmay, hqueue])

/-- EVALUATION_START where WE may take no position, or finds none. -/
theorem exec_evaluationStart_idle {s : State} (h : s.mayEvaluate = false ∨ s.ss.evalQueue = []) :
    exec .evaluationStart s = .next s := by
  change occurs s _ s.startEvaluation = _
  refine occurs_otherwise (.inr ?_)
  rcases h with h | h <;> simp [h]

/-! ## Stale heads -/

/-- The chains with the scheduled flags of the positions of `stale` cleared (R57). -/
def unscheduled (chains : Vector Chain 16) (stale : List Pos) : Vector Chain 16 :=
  Vector.ofFn fun q => if q ∈ stale then { chains[q] with scheduled := false } else chains[q]

@[simp] theorem unscheduled_getElem (chains : Vector Chain 16) (stale : List Pos) (q : Pos) :
    (unscheduled chains stale)[q] = if q ∈ stale then { chains[q] with scheduled := false } else chains[q] := by
  simp [unscheduled]

theorem unscheduled_nil (chains : Vector Chain 16) : unscheduled chains [] = chains := by
  ext q hq
  simp [unscheduled]

theorem unscheduled_cons (chains : Vector Chain 16) (p : Pos) (stale : List Pos) :
    unscheduled (upd chains p fun c => { c with scheduled := false }) stale = unscheduled chains (p :: stale) := by
  refine Vector.ext fun q hq => ?_
  by_cases hp : p.val = q
  · subst hp
    simp [unscheduled]
  · have hne : ¬ (⟨q, hq⟩ : Pos) = p := fun e => hp (congrArg Fin.val e).symm
    simp [unscheduled, hp, hne]

/-- WE drops the stale entries at the head of the queue one by one and comes to the entry behind them (R57). -/
theorem takeHead_stale_append {s : State} {stale : List Pos} (rest : List Pos)
    (h : ∀ q ∈ stale, s.ss.chains[q].len < (s.bankInForce q).w) :
    s.takeHead (stale ++ rest) = State.takeHead { s with ss := { s.ss with chains := unscheduled s.ss.chains stale } } rest := by
  induction stale generalizing s with
  | nil => rw [unscheduled_nil]; rfl
  | cons p stale ih =>
    have hshort : s.windowFull p = false := decide_eq_false (Nat.not_le.mpr (h p List.mem_cons_self))
    rw [List.cons_append, takeHead_stale hshort, ih, unscheduled_cons]
    intro q hq
    have hlen : (upd s.ss.chains p fun c => { c with scheduled := false })[q].len = s.ss.chains[q].len := by
      simp only [Fin.getElem_fin, upd_getElem]
      split <;> rfl
    exact hlen.trans_lt (h q (List.mem_cons_of_mem p hq))

/-! ## The capture -/

/-- The calibration value of a cell of place `q` (R69, R178). -/
theorem placeSlice_getElem (v : Vector Nat 24) (q : Place) (c : Fin 6) :
    (placeSlice v q)[c] = v.toList.getD (6 * q.val + c.val) 0 := by
  have hlt : 6 * q.val + c.val < 24 := by omega
  simp [placeSlice, List.getD, hlt]

/-- WE captures the calibration values of the position's place, or the neutral ones where the lookup found no entry (R69). -/
theorem captureEvaluation_calibration (s : State) (p : Pos) (c : Fin 6) :
    match s.calibrationOf p with
    | some k =>
      (s.captureEvaluation p).offsets[c] = (s.tables.calibration[k].offsets.toList.getD (6 * (s.entry p).place.val + c.val) 0) ∧
      (s.captureEvaluation p).gains[c] = (s.tables.calibration[k].gains.toList.getD (6 * (s.entry p).place.val + c.val) 0)
    | none => (s.captureEvaluation p).offsets[c] = 0 ∧ (s.captureEvaluation p).gains[c] = 64 := by
  unfold State.captureEvaluation
  cases s.calibrationOf p with
  | none => simp
  | some k => exact ⟨placeSlice_getElem .., placeSlice_getElem ..⟩

/-- Behind stale heads stands a position with a full window: its evaluation starts, with what WE captures of it now (R57, R67). -/
theorem takeHead_behind_stale {s : State} {stale behind : List Pos} {p : Pos}
    (hstale : ∀ q ∈ stale, s.ss.chains[q].len < (s.bankInForce q).w) (hfull : (s.bankInForce p).w ≤ s.ss.chains[p].len) :
    s.takeHead (stale ++ p :: behind) = { s with
      we := some (s.captureEvaluation p)
      ss := { s.ss with
        evalQueue := behind
        chains := upd (unscheduled s.ss.chains stale) p fun c => { c with underEval := true } } } := by
  have hfresh : p ∉ stale := fun hp => Nat.not_le.mpr (hstale p hp) hfull
  have hchain : (unscheduled s.ss.chains stale)[p] = s.ss.chains[p] := by rw [unscheduled_getElem, if_neg hfresh]
  have hcapture : State.captureEvaluation { s with ss := { s.ss with chains := unscheduled s.ss.chains stale } } p =
      s.captureEvaluation p := by
    simp only [State.captureEvaluation, hchain]
    rfl
  rw [takeHead_stale_append _ hstale, takeHead_full (decide_eq_true (by rw [hchain]; exact hfull)), hcapture]

/-- WE takes nothing in CONFIG, beside an evaluation in flight, or where an entry to CONFIG is due (R57, log entry 26). -/
theorem mayEvaluate_eq_false {s : State} (h : s.mode = .config ∨ s.we.isSome = true ∨ s.change = .configWaiting true) :
    s.mayEvaluate = false := by
  refine Bool.eq_false_iff.mpr fun hmay => ?_
  obtain ⟨hwe, hmode, hchange⟩ := mayEvaluate_iff.mp hmay
  rcases h with hconfig | hflight | hdue
  · rcases hmode with hrun | hphase
    · rw [hconfig] at hrun
      cases hrun
    · have hhold := (inEvaluationPhase_iff.mp hphase).1
      rw [hconfig] at hhold
      cases hhold
  · rw [hwe] at hflight
    cases hflight
  · exact hchange hdue

/-- Settles O25: the stale heads are dropped by induction on them, and the entry behind them decides what WE does. -/
theorem evaluationStartCapturesOrDrops : Obligations.EvaluationStartCapturesOrDrops := by
  refine ⟨fun s stale rest hs hwe hchange hmode hqueue hstale => ?_, fun s hnone => exec_evaluationStart_idle ?_⟩
  · have hmay : s.mayEvaluate = true := mayEvaluate_iff.mpr ⟨hwe, hmode.imp_right inEvaluationPhase_iff.mpr, hchange⟩
    constructor
    · rintro rfl hne
      have hexec := exec_evaluationStart hs hmay hne
      rw [hqueue, takeHead_stale_append [] hstale] at hexec
      exact ⟨_, hexec, rfl, unscheduled_getElem s.ss.chains stale⟩
    · rintro p behind rfl hfull
      have hexec := exec_evaluationStart hs hmay (by simp [hqueue])
      rw [hqueue, takeHead_behind_stale hstale hfull] at hexec
      refine ⟨_, s.captureEvaluation p, hexec, rfl, fun q => ?_, rfl, rfl, rfl, captureEvaluation_calibration s p⟩
      by_cases hq : q = p
      · subst hq
        have hfresh : q ∉ stale := fun hmem => Nat.not_le.mpr (hstale q hmem) hfull
        rw [if_pos rfl, upd_at, unscheduled_getElem, if_neg hfresh]
      · rw [if_neg hq, upd_elsewhere _ _ _ _ (Ne.symm hq), unscheduled_getElem]
  · rcases hnone with hconfig | hflight | hempty | hdue
    · exact .inl (mayEvaluate_eq_false (.inl hconfig))
    · exact .inl (mayEvaluate_eq_false (.inr (.inl hflight)))
    · exact .inr hempty
    · exact .inl (mayEvaluate_eq_false (.inr (.inr hdue)))

/-! ## The completion -/

/-- Once both flags of a position are cleared, it is queued again when its chain holds W samples (R55, R61). -/
theorem SampleStore.schedule_clearFlags (ss : SampleStore) (p : Pos) (w : Nat) :
    (ss.clearFlags p).schedule p w = { ss with
      chains := ss.chains.set p { ss.chains[p] with underEval := false, scheduled := decide (w ≤ ss.chains[p].len) }
      evalQueue := if w ≤ ss.chains[p].len then ss.evalQueue ++ [p] else ss.evalQueue } := by
  have hchain : (ss.clearFlags p).chains[p] = { ss.chains[p] with underEval := false, scheduled := false } := upd_at ..
  rw [SampleStore.schedule_does, hchain]
  by_cases hlen : w ≤ ss.chains[p.val].len
  · simp [SampleStore.clearFlags, upd, hlen]
  · simp [SampleStore.clearFlags, upd, hlen]

/-- An entry to CONFIG that waits is all that a completion calls for besides (R169). -/
theorem callEntry_does (s : State) : s.callEntry = { s with change := s.callEntry.change } := by
  unfold State.callEntry
  split <;> rfl

/-- EVALUATION_COMPLETION with no RESET_RUNTIME waiting for it. -/
theorem exec_evaluationCompletion {s : State} {e : Evaluation} (hs : s.power = .on) (hwe : s.we = some e)
    (hchange : s.change ≠ .resetSettling) : exec .evaluationCompletion s = .next (s.completeEvaluation e).callEntry := by
  change execEvaluationCompletion s = _
  unfold execEvaluationCompletion
  rw [hwe]
  dsimp only
  rw [if_neg hchange]
  exact occurs_due hs rfl

/-- Settles O26: without CL's part the completion is the clearing of the flags with the scheduling test. -/
theorem staleEvaluationIsDiscarded : Obligations.StaleEvaluationIsDiscarded := by
  intro s e hs hwe hchange hepoch
  refine ⟨(s.completeEvaluation e).callEntry.change, ?_⟩
  rw [exec_evaluationCompletion hs hwe hchange, callEntry_does]
  have hdiscard : s.completeEvaluation e = State.scheduleTest { s with we := none, ss := s.ss.clearFlags e.pos } e.pos := by
    unfold State.completeEvaluation
    rw [if_neg hepoch]
  rw [hdiscard]
  unfold State.scheduleTest
  rw [SampleStore.schedule_clearFlags]
  rfl

end Sys2Proof.Machine
end

section
/-! EVALUATION_COMPLETION of a valid evaluation (R59, R61, R85 to R91, R94). -/

namespace Sys2Proof.Machine

/-! ## The reminder record that a new class leaves -/

/-- The record after a trigger test made at once of `r` (R112). -/
def State.triggerMet (s : State) (p : Pos) (r : ReminderRecord) : ReminderRecord :=
  if r.awaitsTrigger && s.triggerHolds p then .toStage1 ((s.profileOf p).stage1 * 10) s.tb.time else r

/-- The record after an entry into PENDING with `r`, with the tests that follow at once (R111, R112, R116, R119). -/
def State.pendingEntered (s : State) (p : Pos) (r : ReminderRecord) : ReminderRecord :=
  deadlineTaken (s.profileOf p) s.tb.time (s.triggerMet p r)

/-- The record that a class handed on in place of `old` leaves (R111, R117 to R119). -/
def State.recordAfterClass (s : State) (p : Pos) (old new : Cls) : ReminderRecord :=
  let r := s.ru.records[p]
  let begun := fun u : ReminderRecord => if s.latched p then .toBuckled else s.pendingEntered p u
  if new = .unknown then
    match r.state with
    | .pending | .stage1 | .stage2 | .expired => r.toSuspended
    | .buckled => .toInactive
    | .inactive | .suspended => r
  else if new.person (s.entry p).childCheck then
    if r.state = .suspended then begun (r.resumed s.tb.time)
    else if r.state = .inactive ∧ old.person (s.entry p).childCheck = false ∧ s.mayApply p = true then begun (.toPending none)
    else r
  else .toInactive

/-- RU with the record of `p` in the place of the one it holds. -/
def ReminderUnit.put (ru : ReminderUnit) (p : Pos) (r : ReminderRecord) : ReminderUnit :=
  { ru with records := ru.records.set p r }

@[simp] theorem ReminderUnit.put_same (ru : ReminderUnit) (p : Pos) : ru.put p ru.records[p.val] = ru := by
  simp [ReminderUnit.put]

@[simp] theorem ReminderUnit.put_put (ru : ReminderUnit) (p : Pos) (r u : ReminderRecord) : (ru.put p r).put p u = ru.put p u := by
  simp [ReminderUnit.put]

theorem ReminderUnit.put_record (ru : ReminderUnit) (p : Pos) (r : ReminderRecord) : (ru.put p r).records[p] = r := by
  simp [ReminderUnit.put]

theorem putRecord_ru (s : State) (p : Pos) (r : ReminderRecord) : (s.putRecord p r).ru = s.ru.put p r := (putRecord_does s p r).1

theorem triggerTest_ru (s : State) (p : Pos) : (s.triggerTest p).ru = s.ru.put p (s.triggerMet p s.ru.records[p]) := by
  unfold State.triggerTest State.triggerMet
  split
  · exact putRecord_ru ..
  · exact (s.ru.put_same p).symm

theorem deadlineTest_ru (s : State) (p : Pos) :
    (s.deadlineTest p).ru = s.ru.put p (deadlineTaken (s.profileOf p) s.tb.time s.ru.records[p]) := by
  unfold State.deadlineTest deadlineTaken
  split
  · exact putRecord_ru ..
  · exact (s.ru.put_same p).symm

/-- A record of `p` stored in RU changes nothing that a trigger test reads besides it. -/
theorem triggerMet_putRecord (s : State) (p : Pos) (r u : ReminderRecord) :
    (s.putRecord p r).triggerMet p u = s.triggerMet p u := by
  obtain ⟨hru, -, -, hvp, -⟩ := putRecord_does s p r
  have hprofile : (s.putRecord p r).profileOf p = s.profileOf p := by simp [State.profileOf, State.entry]
  have htime : (s.putRecord p r).tb.time = s.tb.time := by simp
  have hholds : (s.putRecord p r).triggerHolds p = s.triggerHolds p := by
    unfold State.triggerHolds State.speedReading
    rw [hprofile, hvp, hru]
  unfold State.triggerMet
  rw [hholds, hprofile, htime]

theorem enterPending_ru (s : State) (p : Pos) (r : ReminderRecord) :
    (s.enterPending p r).ru = s.ru.put p (s.pendingEntered p r) := by
  have htime : ((s.putRecord p r).triggerTest p).tb.time = s.tb.time := by simp
  have hprofile : ((s.putRecord p r).triggerTest p).profileOf p = s.profileOf p := by simp [State.profileOf, State.entry]
  have hmet : ((s.putRecord p r).triggerTest p).ru = s.ru.put p (s.triggerMet p r) := by
    rw [triggerTest_ru, triggerMet_putRecord, putRecord_ru, ReminderUnit.put_record, ReminderUnit.put_put]
  unfold State.enterPending State.pendingEntered
  rw [deadlineTest_ru, hmet, htime, hprofile, ReminderUnit.put_record, ReminderUnit.put_put]

/-- A class handed on changes the record of its position, and nothing else in RU (R111, R117 to R119). -/
theorem reminderClass_ru (s : State) (p : Pos) (old new : Cls) :
    (s.reminderClass p old new).ru = s.ru.put p (s.recordAfterClass p old new) := by
  have hbegun (u : ReminderRecord) : (if s.latched p then s.putRecord p .toBuckled else s.enterPending p u).ru =
      s.ru.put p (if s.latched p then .toBuckled else s.pendingEntered p u) := by
    split
    · exact putRecord_ru ..
    · exact enterPending_ru ..
  unfold State.reminderClass State.recordAfterClass
  dsimp only
  split
  · unfold State.reminderUnknown
    dsimp only
    cases s.ru.records[p].state <;> simp [putRecord_ru]
  · split
    · split
      · exact hbegun _
      · split
        · exact hbegun _
        · exact (s.ru.put_same p).symm
    · exact putRecord_ru ..

/-- What CL holds of the classes is not read by RU: it is handed the old and the new one (R95). -/
theorem reminderClass_cl_irrelevant (s : State) (cl : Vector ClassRecord 16) (p : Pos) (old new : Cls) :
    (State.reminderClass { s with cl := cl } p old new).ru = (s.reminderClass p old new).ru := by
  rw [reminderClass_ru, reminderClass_ru]
  rfl

/-! ## The class record that a window leaves -/

theorem effectiveObj_eq (b : Thresholds) (committed : Cls) : effectiveObj b committed = objBoundary b committed := by
  cases committed <;> rfl

theorem effectiveAdult_eq (b : Thresholds) (committed : Cls) : effectiveAdult b committed = adultBoundary b committed := by
  cases committed <;> rfl

/-- The candidate and the class that a clean window leaves, from what it commits (R89, R90). -/
theorem afterCleanWindow_eq (r : ClassRecord) (raw : Cls) (c : Nat) :
    afterCleanWindow r raw c = ((r.confirmation raw c).1.getD r.committed, (r.confirmation raw c).2) := by
  unfold afterCleanWindow ClassRecord.confirmation
  (repeat' split) <;> rfl

/-- The record after a clean window of raw class `raw` (R89, R90, R94). -/
def ClassRecord.cleaned (r : ClassRecord) (raw : Cls) (c : Nat) : ClassRecord :=
  let (committed, candidate, confirm) := afterCleanWindow r raw c
  { r with disturbedRun := 0, committed, candidate, confirm, supp := committed.suppression }

/-- The record after a disturbed window (R88). -/
def ClassRecord.shaken (r : ClassRecord) : ClassRecord := { r with disturbedRun := min (r.disturbedRun + 1) 15 }

/-- The record after a window's result (R86 to R90). -/
def ClassRecord.judged (r : ClassRecord) (b : Thresholds) (w : WindowResult) : ClassRecord :=
  let raw := rawClass b r.committed w
  if w.disturbed then (r.recordFigures w raw).shaken else (r.recordFigures w raw).cleaned raw b.c

/-- The record with ROUGH as its disturbed run calls for (R91). -/
def ClassRecord.roughened (r : ClassRecord) (limit : Nat) : ClassRecord :=
  { r with quality := { r.quality with rough := decide (limit ≤ r.disturbedRun) } }

/-- The record with SAMPLE_LOSS as it stays when its position has lost a sample since the completion before, or has not (R59). -/
def ClassRecord.lossSettled (r : ClassRecord) (loss : Bool) : ClassRecord :=
  { r with quality := { r.quality with sampleLoss := r.quality.sampleLoss && loss } }

/-- A judged record holds the figures, keeps its flags, and its suppression state follows its class (R86, R87, R94). -/
theorem ClassRecord.judged_figures {r : ClassRecord} (b : Thresholds) (w : WindowResult) (h : r.supp = r.committed.suppression) :
    (r.judged b w).lastL = w.lbar ∧ (r.judged b w).lastD = w.spread ∧ (r.judged b w).lastF = w.fmin ∧
    (r.judged b w).lastRaw = rawClass b r.committed w ∧ (r.judged b w).quality = r.quality ∧
    (r.judged b w).supp = (r.judged b w).committed.suppression := by
  unfold ClassRecord.judged
  dsimp only
  split
  · exact ⟨rfl, rfl, rfl, rfl, rfl, h⟩
  · exact ⟨rfl, rfl, rfl, rfl, rfl, rfl⟩

theorem ClassRecord.judged_disturbed (r : ClassRecord) (b : Thresholds) {w : WindowResult} (h : w.disturbed = true) :
    (r.judged b w).committed = r.committed ∧ (r.judged b w).candidate = r.candidate ∧ (r.judged b w).confirm = r.confirm ∧
    (r.judged b w).disturbedRun = min (r.disturbedRun + 1) 15 := by
  unfold ClassRecord.judged
  rw [h]
  exact ⟨rfl, rfl, rfl, rfl⟩

theorem ClassRecord.judged_clean (r : ClassRecord) (b : Thresholds) {w : WindowResult} (h : w.disturbed = false) :
    (r.judged b w).disturbedRun = 0 ∧ ((r.judged b w).committed, (r.judged b w).candidate, (r.judged b w).confirm) =
      afterCleanWindow r (rawClass b r.committed w) b.c := by
  unfold ClassRecord.judged
  rw [h]
  exact ⟨rfl, rfl⟩

theorem upd_upd {α : Type} {n : Nat} (v : Vector α n) (i : Fin n) (f g : α → α) : upd (upd v i f) i g = upd v i (g ∘ f) := by
  simp [upd]

/-- A change of class goes to RU (R95). -/
theorem setClass_ru (s : State) (p : Pos) (c : Cls) :
    (s.setClass p c).ru = if c = s.cl[p].committed then s.ru else (s.reminderClass p s.cl[p].committed c).ru := by
  unfold State.setClass
  dsimp only
  split
  · rfl
  · split <;> simp [reminderClass_cl_irrelevant]

/-- From `s` to `t` the class record of `p` becomes `r`, and RU is handed its class where that is a new one (R95). -/
def ClassMoved (s t : State) (p : Pos) (r : ClassRecord) : Prop :=
  t.cl = s.cl.set p r ∧
  t.ru = if r.committed = s.cl[p].committed then s.ru else (s.reminderClass p s.cl[p].committed r.committed).ru

/-- A clean window moves the record as R89 and R90 say, given that the suppression state has followed the class. -/
theorem classMoved_classifyClean {s : State} {p : Pos} (raw : Cls) (c : Nat) (h : s.cl[p].supp = s.cl[p].committed.suppression) :
    ClassMoved s (s.classifyClean p raw c) p (s.cl[p].cleaned raw c) := by
  have hclean := afterCleanWindow_eq s.cl[p] raw c
  unfold State.classifyClean ClassRecord.cleaned
  rw [hclean]
  rcases s.cl[p].confirmation raw c with ⟨_ | k, candidate, confirm⟩
  · refine ⟨?_, (if_pos rfl).symm⟩
    simp only [upd, Option.getD_none, ← h]
  · refine ⟨?_, ?_⟩
    · dsimp only
      rw [setClass_cl, upd_upd]
      rfl
    · dsimp only
      rw [setClass_ru, reminderClass_cl_irrelevant, upd_at]
      rfl

theorem classMoved_classifyDisturbed (s : State) (p : Pos) : ClassMoved s (s.classifyDisturbed p) p s.cl[p].shaken :=
  ⟨rfl, (if_pos rfl).symm⟩

/-- The record of the figures before the move is part of it (R87). -/
theorem ClassMoved.of_figured {s t : State} {p : Pos} {r : ClassRecord} {f : ClassRecord → ClassRecord}
    (hsame : (f s.cl[p]).committed = s.cl[p].committed) (h : ClassMoved { s with cl := upd s.cl p f } t p r) :
    ClassMoved s t p r := by
  obtain ⟨hcl, hru⟩ := h
  refine ⟨by simpa [upd] using hcl, ?_⟩
  rw [hru, reminderClass_cl_irrelevant, upd_at, hsame]

/-- A quality update after the move changes the flags of the record, and RU reads none of them (R95). -/
theorem ClassMoved.setQuality {s t : State} {p : Pos} {r : ClassRecord} (h : ClassMoved s t p r) (f : Quality → Quality) :
    ClassMoved s (t.setQuality p f) p { r with quality := f r.quality } := by
  obtain ⟨hcl, hru⟩ := h
  refine ⟨?_, hru⟩
  rw [(setQuality_does t p f).1, hcl]
  simp [upd]

/-- The move is that of one position (R59). -/
theorem ClassMoved.elsewhere {s t : State} {p q : Pos} {r : ClassRecord} (h : ClassMoved s t p r) (hq : q ≠ p) :
    t.cl[q] = s.cl[q] ∧ t.ru.records[q] = s.ru.records[q] := by
  obtain ⟨hcl, hru⟩ := h
  have hne : ¬ p.val = q.val := fun e => hq (Fin.ext e.symm)
  refine ⟨by simp [hcl, hne], ?_⟩
  rw [hru]
  split
  · rfl
  · simp [reminderClass_ru, ReminderUnit.put, hne]

theorem ClassMoved.updateRough {s t : State} {p : Pos} {r : ClassRecord} (h : ClassMoved s t p r) :
    ClassMoved s (t.updateRough p) p (r.roughened t.tables.globals.roughLimit) := by
  have hrecord : t.cl[p] = r := by simp [h.1]
  unfold State.updateRough
  rw [hrecord]
  exact h.setQuality _

theorem ClassMoved.settleLoss {s t : State} {p : Pos} {r : ClassRecord} (h : ClassMoved s t p r) :
    ClassMoved s (t.settleLoss p) p (r.lossSettled t.ss.chains[p].loss) := by
  unfold State.settleLoss ClassRecord.lossSettled
  cases t.ss.chains[p].loss with
  | true =>
    rw [Bool.and_true]
    exact h
  | false =>
    rw [Bool.and_false]
    exact h.setQuality fun q => { q with sampleLoss := false }

/-- CL acts on a result: the record is judged, and ROUGH follows the disturbed run (R87 to R91). -/
theorem classMoved_classify {s : State} {p : Pos} (b : Thresholds) (w : WindowResult)
    (h : s.cl[p].supp = s.cl[p].committed.suppression) :
    ClassMoved s (s.classify p b w) p ((s.cl[p].judged b w).roughened s.tables.globals.roughLimit) := by
  have hfigured (f : ClassRecord → ClassRecord) : (upd s.cl p f)[p] = f s.cl[p] := upd_at ..
  unfold State.classify ClassRecord.judged
  refine .of_figured (f := fun r => r.recordFigures w (rawClass b s.cl[p].committed w)) rfl ?_
  cases w.disturbed with
  | true =>
    have hmoved := classMoved_classifyDisturbed
      { s with cl := upd s.cl p fun r => r.recordFigures w (rawClass b s.cl[p].committed w) } p
    rw [hfigured] at hmoved
    exact hmoved.updateRough
  | false =>
    have hmoved := classMoved_classifyClean (p := p)
      (s := { s with cl := upd s.cl p fun r => r.recordFigures w (rawClass b s.cl[p].committed w) })
      (rawClass b s.cl[p].committed w) b.c (by rw [hfigured]; exact h)
    rw [hfigured] at hmoved
    simpa using hmoved.updateRough

/-- A valid completion: the record of the position is judged, and its SAMPLE_LOSS is settled (R59, R87 to R91). -/
theorem classMoved_validCompletion {s : State} (e : Evaluation) (h : s.cl[e.pos].supp = s.cl[e.pos].committed.suppression) :
    ClassMoved s (s.validCompletion e) e.pos
      (((s.cl[e.pos].judged e.bank (windowResult (s.ss.samplesFrom s.ss.chains[e.pos].head e.bank.w) e)).roughened
        s.tables.globals.roughLimit).lossSettled s.ss.chains[e.pos].loss) := by
  unfold State.validCompletion
  dsimp only
  generalize windowResult (s.ss.samplesFrom s.ss.chains[e.pos].head e.bank.w) e = result
  have hmoved := classMoved_classify e.bank result h
  have hss : (s.classify e.pos e.bank result).ss = s.ss := by simp
  generalize s.classify e.pos e.bank result = t at hmoved hss ⊢
  have hreturned : ClassMoved s { t with ss := t.ss.returnOldest e.pos e.bank.h } e.pos _ := hmoved
  obtain ⟨-, -, -, hchain, -⟩ := s.ss.returnOldest_does e.pos e.bank.h
  have hloss : (t.ss.returnOldest e.pos e.bank.h).chains[e.pos].loss = s.ss.chains[e.pos].loss := by rw [hss, hchain]
  rw [← hloss]
  exact hreturned.settleLoss

/-! ## The store that a valid completion leaves -/

/-- H buckets leave the chain of the position, and its mark of a lost sample is cleared (R59). -/
theorem validCompletion_ss (s : State) (e : Evaluation) :
    (s.validCompletion e).ss = { s.ss.returnOldest e.pos e.bank.h with
      chains := upd (s.ss.returnOldest e.pos e.bank.h).chains e.pos fun c => { c with loss := false } } := by
  unfold State.validCompletion State.settleLoss
  dsimp only
  split <;> simp

/-- The chain of the position is shorter by H buckets, or empty, its flags are settled, and it is queued again when W samples remain
(R59, R61). -/
theorem completeEvaluation_ss {s : State} {e : Evaluation} (hvalid : s.ss.chains[e.pos].epoch = e.epoch) :
    (s.completeEvaluation e).ss.chains[e.pos] = { s.ss.chains[e.pos] with
      head := (s.ss.returnOldest e.pos e.bank.h).chains[e.pos].head
      tail := (s.ss.returnOldest e.pos e.bank.h).chains[e.pos].tail
      len := s.ss.chains[e.pos].len - e.bank.h
      scheduled := decide ((s.bankInForce e.pos).w ≤ s.ss.chains[e.pos].len - e.bank.h)
      underEval := false
      loss := false } ∧
    (s.completeEvaluation e).ss.evalQueue = (if (s.bankInForce e.pos).w ≤ s.ss.chains[e.pos].len - e.bank.h
      then s.ss.evalQueue ++ [e.pos] else s.ss.evalQueue) ∧
    ∀ q : Pos, q ≠ e.pos → (s.completeEvaluation e).ss.chains[q] = s.ss.chains[q] := by
  obtain ⟨-, -, hqueue, hchain, hothers⟩ := s.ss.returnOldest_does e.pos e.bank.h
  have hbank : (State.bankInForce { s.validCompletion e with we := none, ss := (s.validCompletion e).ss.clearFlags e.pos } e.pos).w =
      (s.bankInForce e.pos).w := by simp [State.bankInForce]
  have hss : (s.completeEvaluation e).ss = ((s.validCompletion e).ss.clearFlags e.pos).schedule e.pos (s.bankInForce e.pos).w := by
    unfold State.completeEvaluation
    rw [if_pos hvalid, ← hbank]
    rfl
  have hsettled : (s.validCompletion e).ss.chains[e.pos] =
      { (s.ss.returnOldest e.pos e.bank.h).chains[e.pos] with loss := false } := by
    rw [validCompletion_ss]
    exact upd_at ..
  rw [hss, SampleStore.schedule_clearFlags, hsettled, hchain]
  refine ⟨?_, ?_, fun q hq => ?_⟩
  · simp
  · simp [validCompletion_ss, hqueue]
  · have hne : ¬ e.pos.val = q.val := fun h => hq (Fin.ext h.symm)
    rw [← hothers q hq]
    simp [validCompletion_ss, hne]

/-- A completion acts on SS, CL and RU, and on what OU and VP are handed (R59 to R61). -/
theorem completeEvaluation_does (s : State) (e : Evaluation) :
    s.completeEvaluation e = { s with
      we := none, ss := (s.completeEvaluation e).ss, cl := (s.completeEvaluation e).cl, ru := (s.completeEvaluation e).ru
      ou := (s.completeEvaluation e).ou, vp := (s.completeEvaluation e).vp } := by
  have hframe := completeEvaluation_frame s e
  have hwe : (s.completeEvaluation e).we = none := rfl
  generalize s.completeEvaluation e = t at hframe hwe ⊢
  cases t
  simp_all

theorem classMoved_completeEvaluation {s : State} {e : Evaluation} (hvalid : s.ss.chains[e.pos].epoch = e.epoch)
    {r : ClassRecord} (h : ClassMoved s (s.validCompletion e) e.pos r) : ClassMoved s (s.completeEvaluation e) e.pos r := by
  unfold State.completeEvaluation
  rw [if_pos hvalid]
  exact h

/-- Settles O27: what the completion makes of CL and RU is `ClassMoved`, what it makes of SS is `completeEvaluation_ss`. -/
theorem validEvaluationIsClassified : Obligations.ValidEvaluationIsClassified := by
  intro s e hs hwe hchange hepoch hfollows w r raw
  have hraw : rawClass e.bank r.committed w = raw := by
    unfold rawClass
    rewrite [effectiveObj_eq, effectiveAdult_eq]
    rfl
  have hmoved := classMoved_completeEvaluation hepoch (classMoved_validCompletion e (hfollows e.pos))
  obtain ⟨hchain, hqueue, hchains⟩ := completeEvaluation_ss hepoch
  obtain ⟨hlbar, hspread, hfmin, hlast, hquality, hsupp⟩ := ClassRecord.judged_figures e.bank w (hfollows e.pos)
  have hexec := exec_evaluationCompletion hs hwe hchange
  have hdoes := completeEvaluation_does s e
  rw [callEntry_does] at hexec
  generalize (s.completeEvaluation e).callEntry.change = change at hexec
  generalize s.completeEvaluation e = t at *
  have hrecord : t.cl[e.pos] =
      ((r.judged e.bank w).roughened s.tables.globals.roughLimit).lossSettled s.ss.chains[e.pos].loss := by
    rw [hmoved.1]
    exact Vector.getElem_set_self ..
  refine ⟨_, hexec, congrArg (fun u : State => { u with change := change }) hdoes, ?_⟩
  dsimp only
  rw [hrecord, hchain]
  refine ⟨hlbar, hspread, hfmin, hlast.trans hraw, hsupp, ClassRecord.judged_disturbed r e.bank, fun hclean => ?_, ?_,
    ⟨rfl, rfl, rfl, hepoch, rfl, hqueue⟩, hmoved.2, fun q hq => ?_⟩
  · rw [← hraw]
    exact ClassRecord.judged_clean r e.bank hclean
  · simp only [ClassRecord.lossSettled, ClassRecord.roughened]
    rw [hquality]
    rfl
  · obtain ⟨hcl, hrecords⟩ := hmoved.elsewhere hq
    exact ⟨hcl, hchains q hq, hrecords⟩

end Sys2Proof.Machine
end

section
/-! The arithmetic of a sample: net values, loads and footprints (R72 to R74). -/

namespace Sys2Proof.Machine

/-! ## Net values (R72) -/

/-- A net value is at most its raw value. -/
theorem netValue_le_raw (x : PlaceSample) (e : Evaluation) (c : Fin 6) : netValue x e c ≤ x.cells[c] := Nat.sub_le ..

/-- With an offset of 0 the net value is the raw value. -/
theorem netValue_of_offset_zero {x : PlaceSample} {e : Evaluation} {c : Fin 6} (h : e.offsets[c] = 0) :
    netValue x e c = x.cells[c] := by
  rw [netValue, h, Nat.sub_zero]

/-- An offset at or above the raw value makes the net value 0. -/
theorem netValue_of_raw_le {x : PlaceSample} {e : Evaluation} {c : Fin 6} (h : x.cells[c] ≤ e.offsets[c]) :
    netValue x e c = 0 := Nat.sub_eq_zero_of_le h

/-- The net value is full scale only for a full-scale raw value with no offset. -/
theorem full_scale_le_netValue_iff {x : PlaceSample} {e : Evaluation} {c : Fin 6} (h : x.cells[c] ≤ 1023) :
    1023 ≤ netValue x e c ↔ x.cells[c] = 1023 ∧ e.offsets[c] = 0 := by
  unfold netValue
  omega

/-- Settles O28: the cases are a raw value above its offset and one at or below it. -/
theorem netValueIsTheRawValueAboveItsOffset : Obligations.NetValueIsTheRawValueAboveItsOffset := by
  intro x e c
  refine ⟨?_, (netValue_le_raw x e c).trans, netValue_of_offset_zero, fun hraw hoffset => netValue_of_raw_le (hoffset ▸ hraw)⟩
  split
  · rfl
  · next h => exact netValue_of_raw_le (Nat.le_of_not_lt h)

/-! ## Footprints (R74) -/

theorem footprint_eq_card (x : PlaceSample) (e : Evaluation) :
    footprint x e = (Finset.univ.filter fun c : Fin 6 => e.bank.cellOn ≤ netValue x e c).card := rfl

theorem footprint_le_six (x : PlaceSample) (e : Evaluation) : footprint x e ≤ 6 := by
  rw [footprint_eq_card]
  exact Finset.card_le_univ _

/-- Settles O29: the filtered list of cells is the filtered set, and its test is decided at each end of cell_on's range. -/
theorem footprintCountsTheCellsAtOrAboveCellOn : Obligations.FootprintCountsTheCellsAtOrAboveCellOn := by
  intro x e
  refine ⟨footprint_eq_card x e, footprint_le_six x e, fun hzero => ?_, fun hraw hfull => ?_, fun gains => rfl⟩
  · have hall : ∀ c : Fin 6, e.bank.cellOn ≤ netValue x e c := fun c => hzero ▸ Nat.zero_le _
    simp [footprint_eq_card, hall]
  · rw [footprint_eq_card, hfull]
    exact congrArg Finset.card (Finset.filter_congr fun c _ => full_scale_le_netValue_iff (hraw c))

/-! ## Loads (R73) -/

/-- The model's list of cells is the list of all of `Fin 6`. -/
theorem weightedSum_eq_sum (x : PlaceSample) (e : Evaluation) :
    weightedSum x e = ∑ c : Fin 6, netValue x e c * e.gains[c] := by
  rw [Fin.sum_univ_def]
  rfl

/-- Six figures of at most `m` each have a sum of at most `6 * m`. -/
theorem sum_cells_le {f : Fin 6 → Nat} {m : Nat} (h : ∀ c, f c ≤ m) : ∑ c : Fin 6, f c ≤ 6 * m := by
  simpa using Finset.sum_le_card_nsmul Finset.univ f m fun c _ => h c

/-- The largest weighted sum, at full scale with the largest gains. -/
theorem weightedSum_le {x : PlaceSample} {e : Evaluation} (h : ∀ c : Fin 6, x.cells[c] ≤ 1023 ∧ e.gains[c] ≤ 255) :
    weightedSum x e ≤ 1565190 := by
  rw [weightedSum_eq_sum]
  refine sum_cells_le (m := 1023 * 255) fun c => ?_
  obtain ⟨hraw, hgain⟩ := h c
  exact Nat.mul_le_mul ((netValue_le_raw x e c).trans hraw) hgain

theorem sampleLoad_eq_ite (x : PlaceSample) (e : Evaluation) :
    sampleLoad x e = if weightedSum x e / 64 ≤ 16383 then weightedSum x e / 64 else 16383 := Nat.min_def

theorem sampleLoad_le_clamp (x : PlaceSample) (e : Evaluation) : sampleLoad x e ≤ 16383 := Nat.min_le_right ..

theorem sampleLoad_of_clamp_lt {x : PlaceSample} {e : Evaluation} (h : 16383 < weightedSum x e / 64) :
    sampleLoad x e = 16383 := Nat.min_eq_right h.le

/-- Under the default calibration the load is the sum of the raw values. -/
theorem sampleLoad_of_default_calibration {x : PlaceSample} {e : Evaluation}
    (h : ∀ c : Fin 6, x.cells[c] ≤ 1023 ∧ e.offsets[c] = 0 ∧ e.gains[c] = 64) :
    sampleLoad x e = ∑ c : Fin 6, x.cells[c] ∧ sampleLoad x e ≤ 6138 := by
  have hsum : weightedSum x e = (∑ c : Fin 6, x.cells[c]) * 64 := by
    rw [weightedSum_eq_sum, Finset.sum_mul]
    refine Finset.sum_congr rfl fun c _ => ?_
    obtain ⟨-, hoffset, hgain⟩ := h c
    rw [netValue_of_offset_zero hoffset, hgain]
  have hraw : ∑ c : Fin 6, x.cells[c] ≤ 6 * 1023 := sum_cells_le fun c => (h c).1
  rw [sampleLoad, hsum, Nat.mul_div_cancel _ (by decide)]
  omega

end Sys2Proof.Machine
end

section
/-! The figures of a window and its verdicts (R70, R75 to R79). -/

namespace Sys2Proof.Machine

/-! ## The mean load (R75) -/

/-- The division of R75: `w` times the mean load is the last multiple of `w` up to the sum and half of `w`. -/
theorem meanLoad_bounds (loads : List Nat) {w : Nat} (hw : 0 < w) :
    w * meanLoad loads w ≤ loads.sum + w / 2 ∧ loads.sum + w / 2 < w * meanLoad loads w + w :=
  ⟨Nat.mul_div_le .., Nat.lt_mul_div_succ _ hw⟩

/-- The mean load is the exact mean rounded to the nearest integer, an exact half upward. -/
theorem meanLoad_rounds_half_up (loads : List Nat) {w : Nat} (hw : 0 < w) :
    2 * loads.sum < w * (2 * meanLoad loads w + 1) ∧ w * (2 * meanLoad loads w) ≤ 2 * loads.sum + w := by
  obtain ⟨hle, hlt⟩ := meanLoad_bounds loads hw
  rw [Nat.mul_add, Nat.mul_left_comm]
  omega

/-- An odd multiple of an odd window length is no doubled sum, so an exact mean over it never ends in a half. -/
theorem two_mul_ne_odd_mul_odd {w : Nat} (hodd : w % 2 = 1) (n k : Nat) : 2 * n ≠ w * (2 * k + 1) := by
  intro h
  have hparity := congrArg (· % 2) h
  simp [Nat.mul_mod, Nat.add_mod, hodd] at hparity

section
variable {loads : List Nat} {w m : Nat} (hlength : loads.length = w) (hw : 0 < w)
include hlength

theorem sum_le_of_loads_le (h : ∀ l ∈ loads, l ≤ m) : loads.sum ≤ w * m := by
  simpa [hlength] using loads.sum_le_card_nsmul m h

theorem le_sum_of_le_loads (h : ∀ l ∈ loads, m ≤ l) : w * m ≤ loads.sum := by
  simpa [hlength] using loads.card_nsmul_le_sum m h

include hw

/-- No mean load is above the largest load. -/
theorem meanLoad_le (h : ∀ l ∈ loads, l ≤ m) : meanLoad loads w ≤ m := by
  have hsum := sum_le_of_loads_le hlength h
  rw [meanLoad, ← Nat.lt_succ_iff, Nat.div_lt_iff_lt_mul hw, Nat.succ_mul, Nat.mul_comm m]
  omega

/-- No mean load is below the smallest load. -/
theorem le_meanLoad (h : ∀ l ∈ loads, m ≤ l) : m ≤ meanLoad loads w := by
  rw [meanLoad, Nat.le_div_iff_mul_le hw, Nat.mul_comm]
  exact (le_sum_of_le_loads hlength h).trans (Nat.le_add_right ..)

end

/-! ## The largest and the smallest figure (R76) -/

theorem largest_eq_max {xs : List Nat} (h : xs ≠ []) : largest xs = xs.max h := by
  cases xs with
  | nil => contradiction
  | cons x xs => simp [largest, List.max]

theorem smallest_eq_min {top : Nat} {xs : List Nat} (h : xs ≠ []) (htop : ∀ x ∈ xs, x ≤ top) : smallest top xs = xs.min h := by
  cases xs with
  | nil => contradiction
  | cons x xs => simp [smallest, List.min, htop x]

section
variable {window : List PlaceSample} (hne : window ≠ []) (f : PlaceSample → Nat)
include hne

/-- Some sample of a window has the largest figure. -/
theorem exists_largest : ∃ a ∈ window, largest (window.map f) = f a ∧ ∀ x ∈ window, f x ≤ f a := by
  have hmap : window.map f ≠ [] := by simpa
  obtain ⟨a, ha, hmax⟩ := List.mem_map.mp (List.max_mem hmap)
  exact ⟨a, ha, (largest_eq_max hmap).trans hmax.symm,
    fun x hx => hmax ▸ List.le_max_of_mem (List.mem_map_of_mem hx)⟩

/-- Some sample of a window has the smallest figure. -/
theorem exists_smallest {top : Nat} (htop : ∀ x, f x ≤ top) :
    ∃ a ∈ window, smallest top (window.map f) = f a ∧ ∀ x ∈ window, f a ≤ f x := by
  have hmap : window.map f ≠ [] := by simpa
  obtain ⟨a, ha, hmin⟩ := List.mem_map.mp (List.min_mem hmap)
  exact ⟨a, ha, (smallest_eq_min hmap (List.forall_mem_map.mpr fun x _ => htop x)).trans hmin.symm,
    fun x hx => hmin ▸ List.min_le_of_mem (List.mem_map_of_mem hx)⟩

/-- The spread lies between two samples of the window, one of the largest load and one of the smallest. -/
theorem windowResult_spread (e : Evaluation) :
    ∃ a ∈ window, ∃ b ∈ window, (windowResult window e).spread = sampleLoad a e - sampleLoad b e ∧
      ∀ x ∈ window, sampleLoad x e ≤ sampleLoad a e ∧ sampleLoad b e ≤ sampleLoad x e := by
  obtain ⟨a, ha, hlargest, hmax⟩ := exists_largest hne (sampleLoad · e)
  obtain ⟨b, hb, hsmallest, hmin⟩ := exists_smallest hne (sampleLoad · e) fun x => sampleLoad_le_clamp x e
  exact ⟨a, ha, b, hb, congrArg₂ (· - ·) hlargest hsmallest, fun x hx => ⟨hmax x hx, hmin x hx⟩⟩

/-- The footprint minimum is the footprint of some sample, and no sample has a smaller one. -/
theorem windowResult_fmin (e : Evaluation) :
    ∃ a ∈ window, (windowResult window e).fmin = footprint a e ∧ ∀ x ∈ window, footprint a e ≤ footprint x e :=
  exists_smallest hne (footprint · e) fun x => footprint_le_six x e

end

/-! ## The verdicts (R77 to R79) -/

theorem countOf_eq_countP (window : List PlaceSample) (test : PlaceSample → Bool) : countOf window test = window.countP test :=
  List.countP_eq_length_filter.symm

theorem windowDisturbed_iff {window : List PlaceSample} {e : Evaluation} {spread : Nat} :
    windowDisturbed window e spread = true ↔ e.bank.w ≤ 2 * window.countP (fun x => x.disturbed) ∨ e.bank.dMax < spread := by
  simp [windowDisturbed, countOf_eq_countP]

theorem windowTag_eq (window : List PlaceSample) (w : Nat) :
    windowTag window w =
      let tags := window.countP fun x => decide (x.tag ≠ .none)
      let forward := window.countP fun x => decide (x.tag = .forward)
      if w < 2 * tags then (if tags - forward < forward then some .forward else some .rearward) else none := by
  have htags : countOf window (·.tag != .none) = window.countP fun x => decide (x.tag ≠ .none) := by
    rw [countOf_eq_countP]
    exact List.countP_congr fun x _ => by simp
  have hforward : countOf window (·.tag == .forward) = window.countP fun x => decide (x.tag = .forward) := by
    rw [countOf_eq_countP]
    exact List.countP_congr fun x _ => by simp
  simp only [windowTag, htags, hforward, apply_ite some]

/-! ## The samples of a window (R70) -/

theorem walk_length (ss : SampleStore) (b : BucketNo) (n : Nat) : (ss.walk b n).length = n := by
  induction n generalizing b with
  | zero => rfl
  | succ n ih => simp [SampleStore.walk, ih]

/-- The first buckets of a walk are those of the shorter walk. -/
theorem walk_take (ss : SampleStore) (b : BucketNo) {n len : Nat} (h : n ≤ len) : (ss.walk b len).take n = ss.walk b n := by
  induction n generalizing b len with
  | zero => rfl
  | succ n ih =>
    obtain ⟨len, rfl⟩ := Nat.exists_eq_succ_of_ne_zero (Nat.ne_zero_of_lt h)
    simp [SampleStore.walk, ih _ (Nat.le_of_succ_le_succ h)]

theorem samplesFrom_eq_map_walk (ss : SampleStore) (b : BucketNo) (n : Nat) :
    ss.samplesFrom b n = (ss.walk b n).map fun k => ss.buckets[k].sample := by
  induction n generalizing b with
  | zero => rfl
  | succ n ih => simp [SampleStore.samplesFrom, SampleStore.walk, ih]

/-- Settles O30: R75's rounding is `meanLoad_bounds`, each figure of R76 is that of a sample of the window, and the window's samples
lie along the links that `walk` follows. -/
theorem windowFiguresAreMeanSpreadAndMinimum : Obligations.WindowFiguresAreMeanSpreadAndMinimum := by
  refine ⟨fun loads w hlength htwo => ?_, fun window e hne => ?_, fun ss b n => ?_, fun ss p w hlen => ?_⟩
  · have hw : 0 < w := Nat.zero_lt_of_lt htwo
    obtain ⟨hbelow, habove⟩ := meanLoad_rounds_half_up loads hw
    refine ⟨rfl, fun hclamp hmax => ⟨?_, meanLoad_le hlength hw hclamp⟩, hbelow, habove,
      fun hodd => two_mul_ne_odd_mul_odd hodd loads.sum, fun m => meanLoad_le hlength hw, fun m => le_meanLoad hlength hw⟩
    calc loads.sum ≤ w * 16383 := sum_le_of_loads_le hlength hclamp
      _ ≤ 16 * 16383 := Nat.mul_le_mul_right _ hmax
  · obtain ⟨a, ha, b, hb, hspread, hbetween⟩ := windowResult_spread hne e
    obtain ⟨c, hc, hfmin, hleast⟩ := windowResult_fmin hne e
    refine ⟨⟨a, ha, b, hb, hspread, hbetween⟩, ⟨c, hc, hfmin, hleast⟩, ?_, ?_, fun hclamped => ?_, rfl,
      fun x => ⟨weightedSum_eq_sum x e, sampleLoad_eq_ite x e, fun hrange => ?_, sampleLoad_of_default_calibration⟩,
      windowDisturbed_iff, windowTag_eq window e.bank.w⟩
    · exact hspread ▸ (Nat.sub_le ..).trans (sampleLoad_le_clamp a e)
    · exact hfmin ▸ footprint_le_six c e
    · rw [hspread, sampleLoad_of_clamp_lt (hclamped a ha), sampleLoad_of_clamp_lt (hclamped b hb)]
    · exact ⟨weightedSum_le hrange, Nat.div_le_div_right (c := 64) (weightedSum_le hrange)⟩
  · rw [samplesFrom_eq_map_walk, List.length_map, walk_length]
  · rw [samplesFrom_eq_map_walk, SampleStore.chainBuckets, walk_take ss _ hlen]

end Sys2Proof.Machine
end

section
/-! What the blocks are told: the operations by which CL and RU change what they hold and hand it on to OU and VP (R94 to R97, R122, R140). -/

namespace Sys2Proof.Machine

/-! ## What is held, and what has been told -/

/-- What CL and RU hold of the positions that other blocks are told of, what OU and VP have been told and derive from it, and the
Position Table. -/
structure Holdings where
  classes : Vector Cls 16
  supps : Vector Suppression 16
  qualities : Vector Quality 16
  confirmed : Vector (Option Reading) 16
  reminders : Vector Reminder 16
  suppA : Option Suppression
  copies : Vector Reminder 16
  groups : Vector GroupState 6
  owner : Option Pos
  suppContent : SuppContent
  clsContent : Vector Cls 16
  beltContent : Vector BeltContent 16
  qualityContent : Vector Quality 16
  positions : Vector PositionEntry 16

/-- The holdings of a state. -/
def State.holdings (s : State) : Holdings :=
  { classes := s.cl.map ClassRecord.committed, supps := s.cl.map ClassRecord.supp, qualities := s.cl.map ClassRecord.quality
    confirmed := s.ru.buckles.map Buckle.confirmed, reminders := s.ru.records.map ReminderRecord.state
    suppA := s.ou.suppA, copies := s.ou.reminders, groups := s.ou.groups, owner := s.ou.owner
    suppContent := s.vp.suppression.content, clsContent := s.vp.cls.content, beltContent := s.vp.belt.content
    qualityContent := s.vp.quality.content, positions := s.tables.positions }

theorem holdings_of_frame {s t : State} (hcl : t.cl = s.cl) (hru : t.ru = s.ru) (hou : t.ou = s.ou) (hvp : t.vp = s.vp)
    (htables : t.tables = s.tables) : t.holdings = s.holdings := by
  simp only [State.holdings, hcl, hru, hou, hvp, htables]

/-- CL changes what no other block is told of. -/
theorem holdings_updClass {s : State} (p : Pos) {f : ClassRecord → ClassRecord}
    (hf : ∀ r, (f r).committed = r.committed ∧ (f r).supp = r.supp ∧ (f r).quality = r.quality) :
    State.holdings { s with cl := upd s.cl p f } = s.holdings := by
  have hmap {α : Type} (g : ClassRecord → α) (hg : ∀ r, g (f r) = g r) : (upd s.cl p f).map g = s.cl.map g := by
    ext q hq
    by_cases h : p.val = q <;> simp [h, hg]
  simp only [State.holdings, hmap _ fun r => (hf r).1, hmap _ fun r => (hf r).2.1, hmap _ fun r => (hf r).2.2]

/-- The reminder records change, and their states do not. -/
theorem holdings_records {s : State} (ru : ReminderUnit) (hbuckles : ru.buckles = s.ru.buckles)
    (hstate : ∀ p : Pos, ru.records[p].state = s.ru.records[p].state) :
    State.holdings { s with ru := ru } = s.holdings := by
  have hmap : ru.records.map ReminderRecord.state = s.ru.records.map ReminderRecord.state := by
    ext q hq
    simpa using hstate ⟨q, hq⟩
  simp only [State.holdings, hbuckles, hmap]

/-- VP changes and keeps its four contents. -/
theorem holdings_putPort {s : State} {v : VehiclePort} (hsupp : v.suppression.content = s.vp.suppression.content)
    (hcls : v.cls.content = s.vp.cls.content) (hbelt : v.belt.content = s.vp.belt.content)
    (hquality : v.quality.content = s.vp.quality.content) : (s.putPort v).holdings = s.holdings := by
  simp only [State.holdings, State.putPort, hsupp, hcls, hbelt, hquality]

@[simp] theorem holdings_queueEvent (s : State) (k : EventKind) (a b c : Byte) :
    (s.queueEvent k a b c).holdings = s.holdings := by
  rw [queueEvent_does]
  rfl

/-! ## Runs of reminder records -/

section
variable {Q : State → Prop} (hput : ∀ t p r, Q t → Q (t.putRecord p r)) {s : State} (h : Q s) (p : Pos)
include hput h

theorem triggerTest_induction : Q (s.triggerTest p) := by
  unfold State.triggerTest
  split
  · exact hput _ _ _ h
  · exact h

theorem deadlineTest_induction : Q (s.deadlineTest p) := by
  unfold State.deadlineTest
  split
  · exact hput _ _ _ h
  · exact h

theorem enterPending_induction (r : ReminderRecord) : Q (s.enterPending p r) :=
  deadlineTest_induction hput (triggerTest_induction hput (hput _ _ _ h) p) p

theorem becomeApplicable_induction : Q (s.becomeApplicable p) := by
  unfold State.becomeApplicable
  dsimp only
  split
  · exact hput _ _ _ h
  · exact enterPending_induction hput h ..

theorem reminderUnknown_induction : Q (s.reminderUnknown p) := by
  unfold State.reminderUnknown
  dsimp only
  split <;> try exact hput _ _ _ h
  all_goals exact h

theorem resume_induction : Q (s.resume p) := by
  unfold State.resume
  dsimp only
  split
  · exact hput _ _ _ h
  · exact enterPending_induction hput h ..

/-- A class handed to RU moves the position's record by records stored one after the other (R111, R117 to R119). -/
theorem reminderClass_induction (old new : Cls) : Q (s.reminderClass p old new) := by
  unfold State.reminderClass
  dsimp only
  repeat' split
  · exact reminderUnknown_induction hput h p
  · exact resume_induction hput h p
  · exact becomeApplicable_induction hput h p
  · exact h
  · exact hput _ _ _ h

end

/-! ## The operations that tell -/

/-- From `s` a state is reached by the operations by which a block tells others what it holds, and by what changes no holding. -/
inductive Told (s : State) : State → Prop where
  | refl : Told s s
  | same {t u : State} (h : Told s t) (hsame : u.holdings = t.holdings) : Told s u
  | record {t : State} (h : Told s t) (p : Pos) (r : ReminderRecord) : Told s (t.putRecord p r)
  | buckle {t : State} (h : Told s t) (p : Pos) (b : Buckle) : Told s (t.putBuckle p b)
  | quality {t : State} (h : Told s t) (p : Pos) (f : Quality → Quality) : Told s (t.setQuality p f)
  | cls {t : State} (h : Told s t) (p : Pos) (c : Cls) : Told s (t.setClass p c)
  | suppression {t : State} (h : Told s t) : Told s t.giveSuppression

theorem Told.frame {s t u : State} (h : Told s t) (hcl : u.cl = t.cl) (hru : u.ru = t.ru) (hou : u.ou = t.ou)
    (hvp : u.vp = t.vp) (htables : u.tables = t.tables) : Told s u := h.same (holdings_of_frame hcl hru hou hvp htables)

theorem told_forEach {α : Type} {xs : List α} {f : α → State → State} {s t : State} (h : Told s t)
    (hf : ∀ x u, Told s u → Told s (f x u)) : Told s (forEach xs f t) :=
  forEach_induction (Told s) xs f t h hf

section
variable {s t : State} (h : Told s t)
include h

@[simp] theorem told_putRecord (p : Pos) (r : ReminderRecord) : Told s (t.putRecord p r) := h.record p r

@[simp] theorem told_putBuckle (p : Pos) (b : Buckle) : Told s (t.putBuckle p b) := h.buckle p b

@[simp] theorem told_setQuality (p : Pos) (f : Quality → Quality) : Told s (t.setQuality p f) := h.quality p f

@[simp] theorem told_setClass (p : Pos) (c : Cls) : Told s (t.setClass p c) := h.cls p c

@[simp] theorem told_queueEvent (k : EventKind) (a b c : Byte) : Told s (t.queueEvent k a b c) :=
  h.same (holdings_queueEvent ..)

@[simp] theorem told_stationEvent (k : EventKind) (st : Station) (a b : Byte) : Told s (t.stationEvent k st a b) :=
  told_queueEvent h ..

@[simp] theorem told_positionEvent (k : EventKind) (p : Pos) (a b : Byte) : Told s (t.positionEvent k p a b) :=
  told_queueEvent h ..

@[simp] theorem told_enterMode (m : Mode) : Told s (t.enterMode m) :=
  told_queueEvent (t := { t with mode := m }) (h.frame rfl rfl rfl rfl rfl) ..

/-! ### Reminders -/

@[simp] theorem told_moveToStage1 (p : Pos) : Told s (t.moveToStage1 p) := told_putRecord h ..

@[simp] theorem told_moveToStage2 (p : Pos) : Told s (t.moveToStage2 p) := told_putRecord h ..

@[simp] theorem told_triggerTest (p : Pos) : Told s (t.triggerTest p) :=
  triggerTest_induction (fun _ p r hu => hu.record p r) h p

@[simp] theorem told_deadlineTest (p : Pos) : Told s (t.deadlineTest p) :=
  deadlineTest_induction (fun _ p r hu => hu.record p r) h p

@[simp] theorem told_enterPending (p : Pos) (r : ReminderRecord) : Told s (t.enterPending p r) :=
  enterPending_induction (fun _ p r hu => hu.record p r) h p r

@[simp] theorem told_expireStage (p : Pos) : Told s (t.expireStage p) := by
  unfold State.expireStage; split <;> simp [h]

@[simp] theorem told_takeTrigger (p : Pos) : Told s (t.takeTrigger p) := by
  unfold State.takeTrigger; split <;> simp [h]

@[simp] theorem told_takeExpiry (p : Pos) : Told s (t.takeExpiry p) := by
  unfold State.takeExpiry; split <;> simp [h]

@[simp] theorem told_takeDueMoves : Told s t.takeDueMoves := told_forEach h fun _ _ hu => by simp [hu]

@[simp] theorem told_latch (p : Pos) : Told s (t.latch p) := by
  unfold State.latch; dsimp only; split <;> simp [h]

@[simp] theorem told_unlatch (p : Pos) : Told s (t.unlatch p) := by
  unfold State.unlatch; dsimp only; (repeat' split) <;> simp [h]

@[simp] theorem told_buckleReading (p : Pos) (x : Reading) : Told s (t.buckleReading p x) := by
  unfold State.buckleReading; dsimp only; (repeat' split) <;> simp [h]

@[simp] theorem told_resetBuckle (p : Pos) : Told s (t.resetBuckle p) := told_putBuckle h ..

@[simp] theorem told_becomeApplicable (p : Pos) : Told s (t.becomeApplicable p) :=
  becomeApplicable_induction (fun _ p r hu => hu.record p r) h p

@[simp] theorem told_allInactive : Told s t.allInactive := told_forEach h fun _ _ hu => by simp [hu]

@[simp] theorem told_resetBuckles : Told s t.resetBuckles := told_forEach h fun _ _ hu => by simp [hu]

/-- The counters of RU, the timers and the marks of its records are told to no block (R108, R112, R113). -/
theorem told_records (ru : ReminderUnit) (hbuckles : ru.buckles = t.ru.buckles)
    (hstate : ∀ p : Pos, ru.records[p].state = t.ru.records[p].state) : Told s { t with ru := ru } :=
  h.same (holdings_records ru hbuckles hstate)

@[simp] theorem told_ignitionComesOn : Told s t.ignitionComesOn :=
  told_forEach (told_records h _ rfl fun _ => rfl) fun _ _ hu => by split <;> simp [hu]

@[simp] theorem told_ignitionGoesOff : Told s t.ignitionGoesOff :=
  told_allInactive (told_records h _ rfl fun _ => rfl)

@[simp] theorem told_markTriggers : Told s t.markTriggers :=
  told_records h _ rfl fun p => by simp only [Fin.getElem_fin, Vector.getElem_ofFn]; split <;> rfl

@[simp] theorem told_speedChange : Told s t.speedChange := by
  unfold State.speedChange; split <;> simp [h]

@[simp] theorem told_reminderTick (v : Time) : Told s (t.reminderTick v) := by
  refine told_markTriggers (told_records h _ rfl fun p => ?_)
  simp only [Fin.getElem_fin, Vector.getElem_ofFn, ReminderRecord.countDown]
  (repeat' split) <;> rfl

@[simp] theorem told_outputTick (v : Time) : Told s (t.outputTick v) := by
  unfold State.outputTick
  dsimp only
  split
  · exact h.same rfl
  · exact h

/-! ### Classes, samples and evaluations -/

@[simp] theorem told_updateRough (p : Pos) : Told s (t.updateRough p) := told_setQuality h ..

@[simp] theorem told_classifyDisturbed (p : Pos) : Told s (t.classifyDisturbed p) :=
  h.same (holdings_updClass p fun _ => ⟨rfl, rfl, rfl⟩)

@[simp] theorem told_classifyClean (p : Pos) (raw : Cls) (c : Nat) : Told s (t.classifyClean p raw c) := by
  have hcounted (candidate : Option Cls) (confirm : Nat) :
      Told s { t with cl := upd t.cl p fun r => { r with disturbedRun := 0, candidate, confirm } } :=
    h.same (holdings_updClass p fun _ => ⟨rfl, rfl, rfl⟩)
  unfold State.classifyClean
  dsimp only
  split <;> simp [hcounted]

@[simp] theorem told_classify (p : Pos) (b : Thresholds) (w : WindowResult) : Told s (t.classify p b w) := by
  have hfigured (raw : Cls) : Told s { t with cl := upd t.cl p fun r => r.recordFigures w raw } :=
    h.same (holdings_updClass p fun _ => ⟨rfl, rfl, rfl⟩)
  unfold State.classify
  dsimp only
  split <;> simp [hfigured]

@[simp] theorem told_flushClass (p : Pos) : Told s (t.flushClass p) := by
  refine told_setClass (told_setQuality ?_ ..) ..
  exact h.same (holdings_updClass p fun _ => ⟨rfl, rfl, rfl⟩)

@[simp] theorem told_fittingChange (p : Pos) (b : Bool) : Told s (t.fittingChange p b) := by
  unfold State.fittingChange; (repeat' split) <;> simp [h]

/-- The Sample Store is told to no block. -/
@[simp] theorem told_store (ss : SampleStore) : Told s { t with ss } := h.frame rfl rfl rfl rfl rfl

@[simp] theorem told_dropSample (p : Pos) : Told s (t.dropSample p) := by
  unfold State.dropSample
  dsimp only
  split
  · exact told_store h _
  · exact told_positionEvent (told_setQuality (told_store h _) ..) ..

@[simp] theorem told_arrive (p : Pos) (x : PlaceSample) : Told s (t.arrive p x) := by
  unfold State.arrive State.scheduleTest
  refine told_store ?_ _
  split <;> simp [h]

@[simp] theorem told_flush (p : Pos) (b : Bool) : Told s (t.flush p b) := by
  have hflushed : Told s (State.flushClass { t with ss := t.ss.flush p } p) := told_flushClass (told_store h _) p
  unfold State.flush
  dsimp only
  split
  · exact told_resetBuckle hflushed p
  · exact hflushed

@[simp] theorem told_flushAll : Told s t.flushAll := told_forEach h fun _ _ hu => by simp [hu]

@[simp] theorem told_clearLosses : Told s t.clearLosses := told_forEach (told_store h _) fun _ _ hu => by simp [hu]

@[simp] theorem told_resetStore : Told s t.resetStore := told_forEach (told_store h _) fun _ _ hu => by simp [hu]

@[simp] theorem told_settleLoss (p : Pos) : Told s (t.settleLoss p) := by
  unfold State.settleLoss
  refine told_store ?_ _
  split <;> simp [h]

@[simp] theorem told_validCompletion (e : Evaluation) : Told s (t.validCompletion e) :=
  told_settleLoss (told_store (told_classify h ..) _) _

@[simp] theorem told_completeEvaluation (e : Evaluation) : Told s (t.completeEvaluation e) := by
  have hcompleted : Told s (if t.ss.chains[e.pos].epoch = e.epoch then t.validCompletion e else t) := by split <;> simp [h]
  exact hcompleted.frame rfl rfl rfl rfl rfl

/-! ### Stations and the outcome of a poll -/

@[simp] theorem told_setNode (st : Station) (f : Node → Node) : Told s (t.setNode st f) := h.frame rfl rfl rfl rfl rfl

@[simp] theorem told_lookupCalibration (st : Station) : Told s (t.lookupCalibration st) :=
  told_forEach (told_setNode h ..) fun _ _ hu => by simp [hu]

@[simp] theorem told_reportCalMissing (st : Station) : Told s (t.reportCalMissing st) := by
  unfold State.reportCalMissing; split <;> simp [h]

@[simp] theorem told_checkPlace (st : Station) (p : Pos) : Told s (t.checkPlace st p) := by
  unfold State.checkPlace; dsimp only; (repeat' split) <;> simp [h]

@[simp] theorem told_placeCheck (st : Station) : Told s (t.placeCheck st) := told_forEach h fun _ _ hu => by simp [hu]

@[simp] theorem told_reviewDefaultCal (st : Station) : Told s (t.reviewDefaultCal st) :=
  told_forEach h fun _ _ hu => by simp [hu]

@[simp] theorem told_activationEvent (st : Station) (old : Node) (a : Byte) (n : Nat) :
    Told s (t.activationEvent st old a n) := by
  unfold State.activationEvent; (repeat' split) <;> simp [h]

@[simp] theorem told_activate (st : Station) (a : Byte) (n l : Nat) : Told s (t.activate st a n l) :=
  told_reviewDefaultCal (told_placeCheck (told_reportCalMissing (told_activationEvent
    (told_lookupCalibration (told_setNode h ..) _) ..) _) _) _

@[simp] theorem told_flushStation (st : Station) : Told s (t.flushStation st) := told_forEach h fun _ _ hu => by simp [hu]

@[simp] theorem told_seatChange (st : Station) (a : Byte) (n l : Nat) : Told s (t.seatChange st a n l) :=
  told_reviewDefaultCal (told_placeCheck (told_reportCalMissing (told_stationEvent
    (told_lookupCalibration (told_setNode (told_flushStation h _) ..) _) ..) _) _) _

@[simp] theorem told_linkLoss (st : Station) : Told s (t.linkLoss st) :=
  told_stationEvent (told_forEach (by simp [h]) fun _ _ hu => by simp [hu]) ..

@[simp] theorem told_miss (st : Station) : Told s (t.miss st) := by
  unfold State.miss; dsimp only; split <;> simp [h]

@[simp] theorem told_noteHop (st : Station) (l : Nat) : Told s (t.noteHop st l) := by
  unfold State.noteHop; dsimp only; split <;> simp [h]

@[simp] theorem told_deliverSamples (st : Station) (xs : List PlaceSample) : Told s (t.deliverSamples st xs) :=
  told_forEach h fun _ _ hu => by split <;> simp [hu]

@[simp] theorem told_identifyActive (st : Station) (a : Byte) (n l : Nat) : Told s (t.identifyActive st a n l) := by
  unfold State.identifyActive; dsimp only; split <;> simp [h]

@[simp] theorem told_sampleActive (st : Station) (a : Byte) (n l : Nat) (xs : List PlaceSample) :
    Told s (t.sampleActive st a n l xs) := by
  unfold State.sampleActive; dsimp only; (repeat' split) <;> simp [h]

@[simp] theorem told_takeOutcome (st : Station) (k : PollKind) (l : Nat) (o : ReplyOutcome) :
    Told s (t.takeOutcome st k l o) := by
  unfold State.takeOutcome; (repeat' split) <;> simp [h]

@[simp] theorem told_putLine (l : LineController) : Told s (t.putLine l) := h.frame rfl rfl rfl rfl rfl

@[simp] theorem told_deliver (p : Poll) (o : ReplyOutcome) : Told s (t.deliver p o) :=
  told_takeOutcome (told_putLine h { t.lc with poll := none }) ..

@[simp] theorem told_takeStartBit (p : Poll) (c : Nat) : Told s (t.takeStartBit p c) := by
  unfold State.takeStartBit; dsimp only; (repeat' split) <;> simp [h]

@[simp] theorem told_readByte (p : Poll) : Told s (t.readByte p) := by
  unfold State.readByte
  dsimp only
  (repeat' split) <;> simp [h]

@[simp] theorem told_runLookup (st : Station) : Told s (t.runLookup st) := by
  unfold State.runLookup
  split
  · exact told_reportCalMissing (told_lookupCalibration (told_setNode h ..) _) _
  · exact h

@[simp] theorem told_runLinkDown (p : Pos) : Told s (t.runLinkDown p) := by
  unfold State.runLinkDown; (repeat' split) <;> simp [h]

@[simp] theorem told_stationsEnterRun : Told s t.stationsEnterRun :=
  told_forEach
    (told_forEach (told_forEach (h.frame rfl rfl rfl rfl rfl) fun _ _ hu => told_runLookup hu _)
      fun _ _ hu => by split <;> simp [hu])
    fun _ _ hu => by simp [hu]

/-! ### Steps and modes -/

@[simp] theorem told_mapStep (f : StepRun → StepRun) : Told s (t.mapStep f) :=
  h.frame (by simp) (by simp) (by simp) (by simp) (by simp)

@[simp] theorem told_finish (w : Work) : Told s (t.finish w) := h.frame rfl rfl rfl rfl rfl

@[simp] theorem told_testDeadlines : Told s t.testDeadlines := by
  unfold State.testDeadlines
  split
  · exact told_mapStep (told_forEach h fun _ _ hu => by simp [hu]) _
  · exact h

@[simp] theorem told_handTicks10 : Told s t.handTicks10 := by
  unfold State.handTicks10
  exact List.foldlRecOn (motive := Told s) _ _ (h.frame rfl rfl rfl rfl rfl) fun _ hu _ _ => told_outputTick hu _

@[simp] theorem told_handTicks100 : Told s t.handTicks100 := by
  unfold State.handTicks100
  exact List.foldlRecOn (motive := Told s) _ _ (h.frame rfl rfl rfl rfl rfl) fun _ hu _ _ => by simp [hu]

@[simp] theorem told_endStep : Told s t.endStep := by
  unfold State.endStep
  exact told_mapStep (told_handTicks100 (told_handTicks10 (told_takeDueMoves (told_testDeadlines h)))) _

@[simp] theorem told_beginStep : Told s t.beginStep :=
  h.frame (by simp) (by simp) (by simp) (by simp) (by simp)

@[simp] theorem told_goOn : Told s t.goOn := by
  unfold State.goOn
  dsimp only
  (repeat' split) <;> simp [h]

@[simp] theorem told_takeTick10 : Told s t.takeTick10 := by
  have htested : Told s (if t.mode = .hold then t.testDeadlines else t) := by split <;> simp [h]
  unfold State.takeTick10
  dsimp only
  split
  · exact htested
  · refine told_outputTick ?_ _
    exact htested.frame rfl rfl rfl rfl rfl

@[simp] theorem told_takeTick100 : Told s t.takeTick100 := by
  have htested : Told s (if t.mode = .hold then t.testDeadlines else t) := by split <;> simp [h]
  unfold State.takeTick100
  dsimp only
  split
  · exact htested
  · refine told_reminderTick ?_ _
    exact htested.frame rfl rfl rfl rfl rfl

@[simp] theorem told_enterHold : Told s t.enterHold :=
  have hheld : Told s t.holdLamps := h.same rfl
  (told_enterMode hheld .hold).frame rfl rfl rfl rfl rfl

@[simp] theorem told_enterConfig : Told s t.enterConfig :=
  told_flushAll (told_resetBuckles (told_allInactive ((told_enterMode h .config).frame rfl rfl rfl rfl rfl)))

@[simp] theorem told_enterRun : Told s t.enterRun := by
  have hentered := told_stationsEnterRun (told_clearLosses (told_flushAll (told_enterMode h .run)))
  unfold State.enterRun
  dsimp only
  generalize (t.enterMode .run).flushAll.clearLosses.stationsEnterRun = u at hentered ⊢
  exact hentered.same rfl

@[simp] theorem told_settleReset : Told s t.settleReset := by
  refine told_finish (told_resetStore ?_) _
  exact h.frame rfl rfl rfl rfl rfl

@[simp] theorem told_handOver (rec : RequestRecord) (r : Result) : Told s (t.handOver rec r) := h.same rfl

/-! ### VP -/

/-- A change of VP that keeps the four contents tells nothing. -/
theorem told_putPort {v : VehiclePort} (hsupp : v.suppression.content = t.vp.suppression.content)
    (hcls : v.cls.content = t.vp.cls.content) (hbelt : v.belt.content = t.vp.belt.content)
    (hquality : v.quality.content = t.vp.quality.content) : Told s (t.putPort v) :=
  h.same (holdings_putPort hsupp hcls hbelt hquality)

@[simp] theorem told_handStale : Told s t.handStale := told_speedChange (told_putPort h rfl rfl rfl rfl)

@[simp] theorem told_takeSpeed (b : Byte) : Told s (t.takeSpeed b) := by
  have hfresh : Told s (if t.vp.staleDue = true then t.handStale else t) := by split <;> simp [h]
  have hstored := told_putPort hfresh
    (v := { (if t.vp.staleDue = true then t.handStale else t).vp with speed := b, staleness := 0 }) rfl rfl rfl rfl
  unfold State.takeSpeed
  dsimp only
  split <;> simp [hstored]

@[simp] theorem told_takePowerMode (m : PowerMode) : Told s (t.takePowerMode m) := by
  have hstored : Told s (t.putPort { t.vp with powerMode := m }) := told_putPort h rfl rfl rfl rfl
  unfold State.takePowerMode
  dsimp only
  (repeat' split) <;> simp [hstored]

@[simp] theorem told_takeInputs (speed power : Option Byte) : Told s (t.takeInputs speed power) := by
  unfold State.takeInputs
  dsimp only
  (repeat' split) <;> simp [h]

/-! ### Requests -/

@[simp] theorem told_serving (r : RequestRecord) (w : Work) : Told s (t.serving r w) := h.frame rfl rfl rfl rfl rfl

/-- The effects of a stored word are told (R97, R98). -/
@[simp] theorem told_writeEffects (u : State) (a : Address) : Told s (t.writeEffects u a) := by
  unfold State.writeEffects
  split
  · exact told_fittingChange h ..
  · exact h.suppression
  · exact h

end

end Sys2Proof.Machine
end

section
/-! What any step can make of what the blocks are told (R94 to R97, R122, R140, R172, R173). -/

namespace Sys2Proof.Machine

/-! ## VP's operations keep the contents -/

/-- VP holds the same four report contents. -/
def VehiclePort.SameContents (v w : VehiclePort) : Prop :=
  w.suppression.content = v.suppression.content ∧ w.cls.content = v.cls.content ∧ w.belt.content = v.belt.content ∧
  w.quality.content = v.quality.content

theorem told_port {s : State} {v : VehiclePort} (h : s.vp.SameContents v) : Told s (s.putPort v) := by
  obtain ⟨hsupp, hcls, hbelt, hquality⟩ := h
  exact told_putPort .refl hsupp hcls hbelt hquality

theorem VehiclePort.sameContents_refill (v : VehiclePort) : v.SameContents v.refill := by
  rw [refill_does]
  exact ⟨rfl, rfl, rfl, rfl⟩

theorem VehiclePort.sameContents_tick (v : VehiclePort) (period : Nat) : v.SameContents (v.tick period) := by
  simp [SameContents, tick]

theorem VehiclePort.sameContents_makeStatusPending (v : VehiclePort) (kind : StatusKind) :
    v.SameContents (v.makeStatusPending kind) := by
  cases kind <;> exact ⟨rfl, rfl, rfl, rfl⟩

theorem VehiclePort.sameContents_succeed (v : VehiclePort) (a : Attempt) : v.SameContents (v.succeed a) := by
  unfold succeed settleSlot
  split
  case h_3 => exact sameContents_refill _
  all_goals exact ⟨rfl, rfl, rfl, rfl⟩

theorem VehiclePort.sameContents_release (v : VehiclePort) (a : Attempt) : v.SameContents (v.release a) := by
  unfold release
  split
  · exact sameContents_refill _
  · exact ⟨rfl, rfl, rfl, rfl⟩

theorem VehiclePort.sameContents_fail (v : VehiclePort) (a : Attempt) : v.SameContents (v.fail a) := by
  have hreleased := v.sameContents_release a
  unfold fail
  dsimp only
  split <;> exact hreleased

/-! ## What a step can do -/

/-- Words of the tables have been stored and their effects told. Words of the Position Table are stored in CONFIG alone (R156, R160,
R161). -/
inductive Stored (s : State) : State → Prop where
  | word (a : Address) (v : Word) (hopen : (s.writeWord a v).tables.positions = s.tables.positions ∨ s.mode = .config) :
      Stored s (s.writeWord a v)
  | words (ps : List Pos) (w : Fin 4) (v : Word)
      (hopen : (s.writeAll ps w v).tables.positions = s.tables.positions ∨ s.mode = .config) : Stored s (s.writeAll ps w v)

theorem Told.trans {s t u : State} (hst : Told s t) (htu : Told t u) : Told s u := by
  induction htu with
  | refl => exact hst
  | same _ hsame ih => exact ih.same hsame
  | record _ p r ih => exact ih.record p r
  | buckle _ p b ih => exact ih.buckle p b
  | quality _ p f ih => exact ih.quality p f
  | cls _ p c ih => exact ih.cls p c
  | suppression _ ih => exact ih.suppression

/-- What a step at a part that is not reset can make of what is held and told. -/
inductive Touched (s : State) : State → Prop where
  | told {t : State} (h : Told s t) : Touched s t
  | stored {t u : State} (hstored : Stored s t) (h : Told t u) : Touched s u
  | reset {t : State} (h : Told s.resetRuntime t) : Touched s t

theorem Touched.trans_told {s t u : State} (h : Touched s t) (htu : Told t u) : Touched s u := by
  cases h with
  | told h => exact .told (h.trans htu)
  | stored hstored h => exact .stored hstored (h.trans htu)
  | reset h => exact .reset (h.trans htu)

/-- A word of another table leaves the Position Table alone. -/
theorem storeWord_positions (s : State) {a : Address} (v : Word) (h : ∀ p w, a ≠ .position p w) :
    (s.storeWord a v).tables.positions = s.tables.positions := by
  have hstored : (s.tables.store a v).positions = s.tables.positions := by
    unfold Tables.store
    split
    case h_1 p w => exact absurd rfl (h p w)
    all_goals rfl
  unfold State.storeWord
  split
  · rfl
  · exact hstored

/-- A request writes the Position Table in CONFIG alone (R156, R161). -/
theorem serve_positions (s : State) (r : RequestRecord) :
    (s.serve r).1.tables.positions = s.tables.positions ∨ s.mode = .config := by
  unfold State.serve
  split
  case h_1 => unfold State.serveRead; (repeat' split) <;> exact .inl rfl
  case h_2 =>
    unfold State.serveWrite
    dsimp only
    split
    · exact .inl rfl
    next a _ =>
      by_cases hmode : s.mode = .config
      · exact .inr hmode
      · (repeat' split) <;> try exact .inl rfl
        next hopen _ _ _ =>
          have hother (p : Pos) (w : Fin 4) : a ≠ .position p w := fun ha => hopen (by simp [ha, Address.writableIn, hmode])
          simpa [State.writeWord] using Or.inl (storeWord_positions s r.value hother)
  case h_3 =>
    by_cases hmode : s.mode = .config
    · exact .inr hmode
    · unfold State.serveMasked
      dsimp only
      (repeat' split) <;> exact .inl rfl
  case h_4 =>
    unfold State.serveSetMode State.changeToRun State.changeToHold State.changeToConfig
    (repeat' split) <;> simp
  case h_5 => unfold State.serveStep; dsimp only; (repeat' split) <;> exact .inl rfl
  case h_6 => unfold State.serveReidentify; dsimp only; (repeat' split) <;> exact .inl rfl
  case h_7 => unfold State.serveReset; (repeat' split) <;> simp
  case h_8 => exact .inl rfl

/-- A served request touches what is told in one of these ways. -/
theorem serve_touched (s : State) (r : RequestRecord) : Touched s (s.serve r).1 := by
  have hserved := serve_served s r
  have hopen := serve_positions s r
  generalize (s.serve r).1 = t, (s.serve r).2 = w at hserved hopen
  cases hserved with
  | wrote a v => exact .stored (.word a v hopen) .refl
  | wroteAll ps k v => exact .stored (.words ps k v hopen) .refl
  | run => exact .told (told_enterRun .refl)
  | hold => exact .told (told_enterHold .refl)
  | holdSettling => exact .told ((told_enterHold .refl).frame rfl rfl rfl rfl rfl)
  | config => exact .told (told_enterConfig .refl)
  | reset => exact .reset (told_resetStore .refl)
  | resetSettling => exact .reset (Told.refl.frame rfl rfl rfl rfl rfl)
  | answered | configWaiting | queued => exact .told (Told.refl.frame rfl rfl rfl rfl rfl)

/-- A received frame: its request is served, and the inputs are told (R137). -/
theorem receive_touched (s : State) (f : CanFrame) : Touched s (s.receive f) := by
  unfold State.receive State.thenInputs State.takeRequest State.handRequest State.accept
  refine Touched.trans_told ?_ (told_takeInputs .refl ..)
  repeat' split
  · exact .told (Told.refl.frame rfl rfl rfl rfl rfl)
  · exact .told (told_serving .refl ..)
  · exact (serve_touched s _).trans_told (told_serving .refl ..)
  · exact .told .refl

/-- Every effect of a row touches what is told in one of these ways, or begins anew with every block at its reset value (R173). -/
theorem RowEffect.touched {s t : State} (heffect : RowEffect s t) :
    (∃ power base pending, t = State.blank power base pending) ∨ Touched s t := by
  cases heffect with
  | fresh straps => exact .inl ⟨_, _, _, rfl⟩
  | blank power => exact .inl ⟨_, _, _, rfl⟩
  | frame f => exact .inr (receive_touched s f)
  | portTick => exact .inr (.told (told_port (VehiclePort.sameContents_tick ..)))
  | statusDue kind => exact .inr (.told (told_port (VehiclePort.sameContents_makeStatusPending ..)))
  | suppressionDue | transmit => exact .inr (.told (told_port ⟨rfl, rfl, rfl, rfl⟩))
  | recovery =>
    refine .inr (.told (told_queueEvent ?_ ..))
    exact told_port ⟨rfl, rfl, rfl, rfl⟩
  | success => exact .inr (.told (told_port (VehiclePort.sameContents_succeed ..)))
  | lost => exact .inr (.told (told_port (VehiclePort.sameContents_release ..)))
  | failure => exact .inr (.told (told_port (VehiclePort.sameContents_fail ..)))
  | configEntry =>
    refine .inr (.told (told_finish ?_ _))
    have hentered := told_enterConfig (.refl : Told s s)
    generalize s.enterConfig = t at hentered ⊢
    exact hentered.frame rfl rfl rfl rfl rfl
  | @completion e =>
    exact .inr (.told ((told_completeEvaluation .refl e).frame (by simp) (by simp) (by simp) (by simp) (by simp)))
  | millisecond | slotStart | samples | pollSend | pollEnd | evaluationStart | holdSettled =>
    exact .inr (.told (Told.refl.frame (by simp) (by simp) (by simp) (by simp) (by simp)))
  | _ => exact .inr (.told (by simp [Told.refl]))

/-- Every step touches what is told in one of these ways, or begins anew with every block at its reset value. -/
theorem step_touched {s t : State} (h : step s = .next t) :
    (∃ power base pending, t = State.blank power base pending) ∨ ∃ q, Touched { s with pending := q } t := by
  unfold step at h
  split at h
  next => cases h; exact .inr ⟨s.pending, .told .refl⟩
  next c rest _ => exact (exec_effect h).touched.imp_right fun htouched => ⟨rest, htouched⟩

end Sys2Proof.Machine
end

section
/-! Promises about what the blocks are told: what it takes for every step to keep one (R94 to R97, R122, R140). -/

namespace Sys2Proof.Machine

/-- A promise that speaks of the holdings alone, and that each of the operations keeps by which a block tells others what it holds. -/
structure KeptWhenTold (P : State → Prop) : Prop where
  same : ∀ {s t : State}, t.holdings = s.holdings → P s → P t
  record : ∀ (s : State) p r, P s → P (s.putRecord p r)
  buckle : ∀ (s : State) p b, P s → P (s.putBuckle p b)
  quality : ∀ (s : State) p f, P s → P (s.setQuality p f)
  cls : ∀ (s : State) p c, P s → P (s.setClass p c)
  suppression : ∀ s : State, P s → P s.giveSuppression

theorem KeptWhenTold.told {P : State → Prop} (hP : KeptWhenTold P) {s t : State} (h : Told s t) (hs : P s) : P t := by
  induction h with
  | refl => exact hs
  | same _ hsame ih => exact hP.same hsame ih
  | record _ p r ih => exact hP.record _ p r ih
  | buckle _ p b ih => exact hP.buckle _ p b ih
  | quality _ p f ih => exact hP.quality _ p f ih
  | cls _ p c ih => exact hP.cls _ p c ih
  | suppression _ ih => exact hP.suppression _ ih

/-- A promise that also holds of a part that begins anew, and after a RESET_RUNTIME. -/
structure KeptBySteps (P : State → Prop) : Prop extends KeptWhenTold P where
  blank : ∀ power base pending, P (State.blank power base pending)
  reset : ∀ s : State, P s.resetRuntime

/-- Such a promise is kept by every step, if it is kept by the words that the step can store. -/
theorem KeptBySteps.keeps {P : State → Prop} (hP : KeptBySteps P) {s t : State}
    (hstored : ∀ q u, Stored { s with pending := q } u → P u) (hs : P s) (h : step s = .next t) : P t := by
  rcases step_touched h with ⟨power, base, pending, rfl⟩ | ⟨q, htouched⟩
  · exact hP.blank ..
  · cases htouched with
    | told h => exact hP.told h (hP.same (s := s) rfl hs)
    | stored hwords h => exact hP.told h (hstored q _ hwords)
    | reset h => exact hP.told h (hP.reset _)

/-! ## What states with the same holdings share -/

/-- The holdings are the same, the Position Table apart. -/
def SameReports (s t : State) : Prop := t.holdings = { s.holdings with positions := t.tables.positions }

theorem SameReports.of_holdings {s t : State} (h : t.holdings = s.holdings) : SameReports s t := by
  have hpositions : t.tables.positions = s.tables.positions := congrArg Holdings.positions h
  rw [SameReports, h, hpositions]
  rfl

section
variable {s t : State} (h : SameReports s t) (p : Pos)
include h

theorem SameReports.committed : t.cl[p].committed = s.cl[p].committed := by
  simpa [State.holdings] using congrArg (fun k => k.classes[p]) h

theorem SameReports.supp : t.cl[p].supp = s.cl[p].supp := by
  simpa [State.holdings] using congrArg (fun k => k.supps[p]) h

theorem SameReports.quality : t.cl[p].quality = s.cl[p].quality := by
  simpa [State.holdings] using congrArg (fun k => k.qualities[p]) h

theorem SameReports.confirmed : t.ru.buckles[p].confirmed = s.ru.buckles[p].confirmed := by
  simpa [State.holdings] using congrArg (fun k => k.confirmed[p]) h

theorem SameReports.reminder : t.ru.records[p].state = s.ru.records[p].state := by
  simpa [State.holdings] using congrArg (fun k => k.reminders[p]) h

end

/-! ## The words that a request stores -/

/-- A stored word touches the Position Table, and nothing else that other blocks are told of. -/
theorem sameReports_storeWord (s : State) (a : Address) (v : Word) :
    SameReports s (s.storeWord a v) := by
  unfold State.storeWord
  split <;> rfl

theorem sameReports_storeWords (s : State) (ps : List Pos) (w : Fin 4) (v : Word) :
    SameReports s (forEach ps (fun p t => t.storeWord (.position p w) v) s) := by
  refine forEach_induction (SameReports s) ps _ s rfl fun p t ht => ?_
  rw [SameReports, sameReports_storeWord, ht]

/-- The words are stored first, and then their effects are told (R160, R161). -/
theorem Stored.told {s t : State} (h : Stored s t) :
    ∃ u, Told u t ∧ SameReports s u ∧
      (u.tables.positions = s.tables.positions ∨ s.mode = .config) := by
  cases h with
  | word a v hopen =>
    refine ⟨s.storeWord a v, told_writeEffects .refl .., sameReports_storeWord .., ?_⟩
    simpa [State.writeWord] using hopen
  | words ps w v hopen =>
    refine ⟨_, told_forEach .refl fun _ _ hu => told_writeEffects hu .., sameReports_storeWords .., ?_⟩
    have htables := forEach_keeps State.tables ps (fun p t => t.writeEffects s (.position p w))
      (forEach ps (fun p t => t.storeWord (.position p w) v) s) (by simp)
    rw [State.writeAll, htables] at hopen
    exact hopen

/-- A promise that does not speak of the Position Table is kept by every step. -/
theorem KeptBySteps.keeps_of_positions {P : State → Prop} (hP : KeptBySteps P)
    (hpositions : ∀ {s t : State}, SameReports s t → P s → P t)
    {s t : State} (hs : P s) (h : step s = .next t) : P t := by
  refine hP.keeps (fun q u hstored => ?_) hs h
  obtain ⟨w, htold, hsame, -⟩ := hstored.told
  exact hP.told htold (hpositions hsame (hP.same (s := s) rfl hs))

/-! ## A new class -/

/-- The part with the class `c` of `p` in CL's record, told to no block yet (R94). -/
def State.classed (s : State) (p : Pos) (c : Cls) : State :=
  { s with cl := upd s.cl p fun r => { r with committed := c, supp := c.suppression } }

/-- The part with the new class `c` of `p` handed to RU and VP (R95). -/
def State.classHanded (s : State) (p : Pos) (c : Cls) : State :=
  ((s.classed p c).reminderClass p s.cl[p].committed c).handClass p c

/-- A class that is committed already is told to no block. -/
theorem setClass_same {s : State} {p : Pos} {c : Cls} (h : c = s.cl[p].committed) : s.setClass p c = s.classed p c := by
  unfold State.setClass State.classed
  rw [if_pos h]

/-- A new class is handed to RU and VP, and for an airbag-relevant position the suppression is given out (R95, R96). -/
theorem setClass_new {s : State} {p : Pos} {c : Cls} (h : c ≠ s.cl[p].committed) :
    s.setClass p c = if (s.entry p).airbag then (s.classHanded p c).giveSuppression else s.classHanded p c := by
  have hentry : (s.classHanded p c).entry p = s.entry p := by simp [State.classHanded, State.classed, State.entry]
  rw [← hentry]
  unfold State.setClass
  rw [if_neg h]
  rfl

@[simp] theorem classed_at (s : State) (p : Pos) (c : Cls) :
    (s.classed p c).cl[p] = { s.cl[p] with committed := c, supp := c.suppression } := upd_at ..

theorem classed_elsewhere (s : State) {p q : Pos} (c : Cls) (h : p ≠ q) : (s.classed p c).cl[q] = s.cl[q] :=
  upd_elsewhere _ _ _ _ h

/-- RU's part in a new class touches OU's copy for position A, VP's suppression, class and quality contents in no way. -/
theorem reminderClass_reports (s : State) (p : Pos) (old new : Cls) :
    (s.reminderClass p old new).ou.suppA = s.ou.suppA ∧ (s.reminderClass p old new).ou.overrides = s.ou.overrides ∧
    (s.reminderClass p old new).vp = { s.vp with belt := (s.reminderClass p old new).vp.belt } := by
  refine reminderClass_induction (Q := fun t => t.ou.suppA = s.ou.suppA ∧ t.ou.overrides = s.ou.overrides ∧
    t.vp = { s.vp with belt := t.vp.belt }) ?_ ⟨rfl, rfl, rfl⟩ ..
  rintro t q r ⟨hsupp, hoverrides, hvp⟩
  obtain ⟨-, hsupp', hoverrides', hvp', -⟩ := putRecord_does t q r
  exact ⟨hsupp'.trans hsupp, hoverrides'.trans hoverrides, by rw [hvp', hvp]⟩

/-- What a new class leaves in CL's records, OU's copy for position A and VP. -/
theorem classHanded_does (s : State) (p : Pos) (c : Cls) :
    (s.classHanded p c).cl = (s.classed p c).cl ∧ (s.classHanded p c).tables = s.tables ∧
    (s.classHanded p c).ou.suppA = s.ou.suppA ∧ (s.classHanded p c).ou.overrides = s.ou.overrides ∧
    (s.classHanded p c).vp = { s.vp with
      belt := (s.classHanded p c).vp.belt
      cls := s.vp.cls.hand (s.vp.cls.content.set p c) s.statusPeriod statusGap } := by
  obtain ⟨hsupp, hoverrides, hvp⟩ := reminderClass_reports (s.classed p c) p s.cl[p].committed c
  have htables : (State.reminderClass (s.classed p c) p s.cl[p].committed c).tables = s.tables := by simp [State.classed]
  refine ⟨by simp [State.classHanded], by simpa [State.classHanded] using htables, hsupp, hoverrides, ?_⟩
  unfold State.classHanded State.handClass State.statusPeriod
  dsimp only
  rw [hvp, htables]
  rfl

/-- A change of class touches CL's record, and VP's class content where it is a new one; the quality content stands. -/
theorem setClass_does (s : State) (p : Pos) (c : Cls) :
    (s.setClass p c).cl = (s.classed p c).cl ∧ (s.setClass p c).ou.overrides = s.ou.overrides ∧
    (s.setClass p c).vp.quality = s.vp.quality ∧
    (s.setClass p c).vp.cls = if c = s.cl[p].committed then s.vp.cls
      else s.vp.cls.hand (s.vp.cls.content.set p c) s.statusPeriod statusGap := by
  by_cases hnew : c = s.cl[p].committed
  · rw [setClass_same hnew, if_pos hnew]
    exact ⟨rfl, rfl, rfl, rfl⟩
  · obtain ⟨hcl, -, -, hoverrides, hvp⟩ := classHanded_does s p c
    have hkept (u : State) (hu : u = s.classHanded p c) (flag : Bool) :
        (if flag then u.giveSuppression else u).cl = u.cl ∧ (if flag then u.giveSuppression else u).ou.overrides = u.ou.overrides ∧
        (if flag then u.giveSuppression else u).vp.quality = u.vp.quality ∧
        (if flag then u.giveSuppression else u).vp.cls = u.vp.cls := by
      cases flag <;> exact ⟨rfl, rfl, rfl, rfl⟩
    obtain ⟨h1, h2, h3, h4⟩ := hkept _ rfl (s.entry p).airbag
    rw [setClass_new hnew, if_neg hnew]
    exact ⟨h1.trans hcl, h2.trans hoverrides, h3.trans (by rw [hvp]), h4.trans (by rw [hvp])⟩

/-- What RU's records, CL's records, a class handed to VP, and the suppression given out keep, a change of class keeps. -/
theorem setClass_induction {Q : State → Prop} (hput : ∀ t p r, Q t → Q (t.putRecord p r))
    (hcl : ∀ (t : State) cl, Q t → Q { t with cl := cl }) (hhand : ∀ t p c, Q t → Q (t.handClass p c))
    (hgive : ∀ t, Q t → Q t.giveSuppression) {s : State} (h : Q s) (p : Pos) (c : Cls) : Q (s.setClass p c) := by
  by_cases hnew : c = s.cl[p].committed
  · rw [setClass_same hnew]
    exact hcl s _ h
  · have hhanded : Q (s.classHanded p c) := hhand _ _ _ (reminderClass_induction hput (hcl s _ h) ..)
    rw [setClass_new hnew]
    split
    · exact hgive _ hhanded
    · exact hhanded

end Sys2Proof.Machine
end

section
/-! Every step keeps the suppression states following their classes, and OU and VP informed of positions A and B (R94 to R97, R134, R140). -/

namespace Sys2Proof.Machine

/-- Each suppression state follows its class, and OU and VP know of A and B (R94, R96). -/
def SuppressionSound (s : State) : Prop := SuppressionFollowsClass s ∧ SuppressionReported s

/-! ## Positions A and B -/

theorem airbagPositions_eq {t u : Tables} (h : ∀ p : Pos, u.positions[p].airbag = t.positions[p].airbag) :
    u.airbagPositions = t.airbagPositions := by
  simp only [Tables.airbagPositions, h]

theorem airbag_of_mem {t : Tables} {p : Pos} (h : p ∈ t.airbagPositions) : t.positions[p].airbag = true :=
  (List.mem_filter.mp h).2

theorem airbag_of_positionA {t : Tables} {p : Pos} (h : t.positionA = some p) : t.positions[p].airbag = true :=
  airbag_of_mem (List.mem_of_getElem? h)

theorem airbag_of_positionB {t : Tables} {p : Pos} (h : t.positionB = some p) : t.positions[p].airbag = true :=
  airbag_of_mem (List.mem_of_getElem? h)

/-! ## What the suppression reports rest on -/

theorem suppEntry_congr {s t : State} {p : Pos} (hclass : t.cl[p].committed = s.cl[p].committed)
    (hsupp : t.cl[p].supp = s.cl[p].supp) : t.suppEntry p = s.suppEntry p := by
  simp only [State.suppEntry, hclass, hsupp]

/-- The reports rest on the airbag-relevant flags and the records of the flagged positions. -/
theorem SuppressionReported.of_same {s t : State} (h : SuppressionReported s)
    (hflags : ∀ p : Pos, (t.entry p).airbag = (s.entry p).airbag) (hou : t.ou.suppA = s.ou.suppA)
    (hvp : t.vp.suppression.content = s.vp.suppression.content)
    (hcl : ∀ p : Pos, (s.entry p).airbag = true → t.cl[p].committed = s.cl[p].committed ∧ t.cl[p].supp = s.cl[p].supp) :
    SuppressionReported t := by
  have hlist : t.tables.airbagPositions = s.tables.airbagPositions := airbagPositions_eq hflags
  have hentries (o : Option Pos) (ho : ∀ p, o = some p → (s.entry p).airbag = true) :
      o.map t.suppEntry = o.map s.suppEntry := by
    cases o with
    | none => rfl
    | some p =>
      obtain ⟨hclass, hsupp⟩ := hcl p (ho p rfl)
      exact congrArg some (suppEntry_congr hclass hsupp)
  have ha := hentries s.tables.positionA fun p hp => airbag_of_positionA hp
  have hb := hentries s.tables.positionB fun p hp => airbag_of_positionB hp
  unfold SuppressionReported at h ⊢
  rwa [Tables.positionA, Tables.positionB, hlist, ← Tables.positionA, ← Tables.positionB, hou, hvp, ha, hb]

/-- The promise rests on the classes, the suppression states, the flags and the two reports. -/
theorem SuppressionSound.of_same {s t : State} (h : SuppressionSound s)
    (hflags : ∀ p : Pos, (t.entry p).airbag = (s.entry p).airbag) (hou : t.ou.suppA = s.ou.suppA)
    (hvp : t.vp.suppression.content = s.vp.suppression.content)
    (hcl : ∀ p : Pos, t.cl[p].committed = s.cl[p].committed ∧ t.cl[p].supp = s.cl[p].supp) : SuppressionSound t := by
  obtain ⟨hfollows, hreported⟩ := h
  refine ⟨fun p => ?_, hreported.of_same hflags hou hvp fun p _ => hcl p⟩
  rw [(hcl p).1, (hcl p).2]
  exact hfollows p

/-- Giving the suppression out makes the reports those of the present records, whatever they were (R96). -/
theorem reported_giveSuppression (s : State) : SuppressionReported s.giveSuppression := by
  obtain ⟨hou, -, hcontent⟩ := giveSuppression_does s
  refine ⟨?_, hcontent⟩
  rw [hou]
  rfl

theorem suppressionSound_giveSuppression {s : State} (h : SuppressionFollowsClass s) : SuppressionSound s.giveSuppression :=
  ⟨h, reported_giveSuppression s⟩

/-! ## The operations that tell -/

/-- A new class of an airbag-relevant position is handed on, and that of another position is not reported (R95, R96). -/
theorem suppressionSound_setClass {s : State} (h : SuppressionSound s) (p : Pos) (c : Cls) :
    SuppressionSound (s.setClass p c) := by
  obtain ⟨hfollows, hreported⟩ := h
  have hclassed : SuppressionFollowsClass (s.classed p c) := fun q => by
    by_cases hq : p = q
    · subst hq
      rw [classed_at]
    · rw [classed_elsewhere s c hq]
      exact hfollows q
  by_cases hnew : c = s.cl[p].committed
  · rw [setClass_same hnew]
    refine ⟨hclassed, hreported.of_same (fun _ => rfl) rfl rfl fun q _ => ?_⟩
    by_cases hq : p = q
    · subst hq
      rw [classed_at]
      exact ⟨hnew, by rw [hnew]; exact (hfollows p).symm⟩
    · rw [classed_elsewhere s c hq]
      exact ⟨rfl, rfl⟩
  · obtain ⟨hcl, htables, hou, -, hvp⟩ := classHanded_does s p c
    have hhanded : SuppressionFollowsClass (s.classHanded p c) := fun q => by
      rw [hcl]
      exact hclassed q
    rw [setClass_new hnew]
    split
    next => exact suppressionSound_giveSuppression hhanded
    next hflag =>
      refine ⟨hhanded, hreported.of_same (fun q => ?_) hou (by rw [hvp]) fun q hq => ?_⟩
      · simp only [State.entry, htables]
      · have hne : p ≠ q := fun e => hflag (e ▸ hq)
        rw [hcl, classed_elsewhere s c hne]
        exact ⟨rfl, rfl⟩

theorem suppressionSound_kept : KeptBySteps SuppressionSound where
  same hsame h :=
    h.of_same (fun p => congrArg (fun k => k.positions[p].airbag) hsame) (congrArg Holdings.suppA hsame)
      (congrArg Holdings.suppContent hsame) fun p => ⟨(SameReports.of_holdings hsame).committed p, (SameReports.of_holdings hsame).supp p⟩
  record s p r h := by
    obtain ⟨-, hou, -, hvp, -⟩ := putRecord_does s p r
    exact h.of_same (fun q => by simp [State.entry]) hou (by rw [hvp]) fun q => by simp
  buckle s p b h := by
    obtain ⟨-, hvp, -⟩ := putBuckle_does s p b
    exact h.of_same (fun q => by simp [State.entry]) (by simp) (by rw [hvp]) fun q => by simp
  quality s p f h := by
    obtain ⟨hcl, hvp, -⟩ := setQuality_does s p f
    refine h.of_same (fun q => by simp [State.entry]) (by simp) (by rw [hvp]) fun q => ?_
    rw [hcl]
    by_cases hq : p.val = q.val <;> simp [hq]
  cls s p c h := suppressionSound_setClass h p c
  suppression s h := suppressionSound_giveSuppression h.1
  blank power base pending := ⟨fun p => by simp [State.blank, Cls.suppression], rfl, rfl⟩
  reset s := by
    have hfresh : SuppressionFollowsClass s.recordsReset.handResetContents := fun p => by
      simp [State.recordsReset, State.freshRecord]
    have hgiven := suppressionSound_giveSuppression hfresh
    rw [resetRuntime_eq]
    exact hgiven.of_same (fun _ => rfl) rfl (congrArg Holdings.suppContent (holdings_queueEvent ..)) fun _ => ⟨rfl, rfl⟩

/-! ## The words that a request stores -/

theorem PositionEntry.store_airbag (e : PositionEntry) {w : Fin 4} (v : Word) (h : w ≠ 3) : (e.store w v).airbag = e.airbag := by
  unfold PositionEntry.store
  split
  case h_4 => exact absurd rfl h
  all_goals rfl

/-- A stored word that is no flag keeps every flag. -/
theorem airbag_storeWord (s : State) {a : Address} (v : Word) (h : ∀ p, a ≠ .position p 3) (q : Pos) :
    ((s.storeWord a v).entry q).airbag = (s.entry q).airbag := by
  by_cases ha : ∃ p w, a = .position p w
  · obtain ⟨p, w, rfl⟩ := ha
    have hw : w ≠ 3 := fun e => h p (e ▸ rfl)
    change (upd s.tables.positions p fun e => e.store w v)[q].airbag = _
    by_cases hq : p = q
    · subst hq
      rw [upd_at, PositionEntry.store_airbag _ v hw]
      rfl
    · rw [upd_elsewhere _ _ _ _ hq]
      rfl
  · have hpositions := storeWord_positions s v fun p w e => ha ⟨p, w, e⟩
    rw [State.entry, hpositions]
    rfl

/-- Stored words that are no flags leave A and B, and the records of both (R96). -/
theorem suppressionSound_storeWord {s : State} (h : SuppressionSound s) {a : Address} (v : Word)
    (ha : ∀ p, a ≠ .position p 3) : SuppressionSound (s.storeWord a v) :=
  h.of_same (airbag_storeWord s v ha) (congrArg Holdings.suppA (sameReports_storeWord s a v)) (by simp) fun p => by simp

/-- The suppression states of new flags are given out, and other words leave A and B (R96, R97). -/
theorem suppressionSound_stored {s t : State} (h : SuppressionSound s) (hstored : Stored s t) : SuppressionSound t := by
  have hkept := suppressionSound_kept.toKeptWhenTold
  cases hstored with
  | word a v =>
    by_cases hflag : ∃ p, a = .position p 3
    · obtain ⟨p, rfl⟩ := hflag
      exact suppressionSound_giveSuppression fun q => by simpa using h.1 q
    · exact hkept.told (told_writeEffects .refl ..) (suppressionSound_storeWord h v fun p e => hflag ⟨p, e⟩)
  | words ps w v =>
    unfold State.writeAll
    by_cases hw : w = 3
    · subst hw
      have hfollows : SuppressionFollowsClass (forEach ps (fun p t => t.storeWord (.position p 3) v) s) := fun q => by
        rw [forEach_keeps State.cl ps _ s (by simp)]
        exact h.1 q
      cases ps with
      | nil => exact h
      | cons p rest =>
        have hgiven := suppressionSound_giveSuppression hfollows
        exact hkept.told (told_forEach (xs := rest) .refl fun q _ hu => told_writeEffects hu s (.position q 3)) hgiven
    · refine hkept.told (told_forEach .refl fun _ _ hu => told_writeEffects hu ..) ?_
      exact forEach_induction SuppressionSound ps _ s h fun p t ht => suppressionSound_storeWord ht v fun q e => hw (by cases e; rfl)

/-- Settles O55. -/
theorem everyStepReportsTheSuppressionOfEachClass : Obligations.EveryStepReportsTheSuppressionOfEachClass :=
  fun s _ hfollows hreported hstep =>
    suppressionSound_kept.keeps
      (fun q _ hstored => suppressionSound_stored (s := { s with pending := q }) ⟨hfollows, hreported⟩ hstored)
      ⟨hfollows, hreported⟩ hstep

end Sys2Proof.Machine
end

section
/-! Every step keeps VP's contents and OU's copies those that CL and RU hold, and OU's lamp groups and chime owner those that the
copies give (R95, R122 to R124, R127, R140). -/

namespace Sys2Proof.Machine

/-! ## The contents of VP and the copies of OU -/

/-- VP's class content is CL's. -/
def ClassesFollow (s : State) : Prop := ∀ p : Pos, s.vp.cls.content[p] = s.cl[p].committed

/-- VP's quality content is CL's. -/
def QualitiesFollow (s : State) : Prop := ∀ p : Pos, s.vp.quality.content[p] = s.cl[p].quality

/-- VP's belt content is RU's, and so are OU's copies. -/
def BeltsFollow (s : State) : Prop := ∀ p : Pos, s.vp.belt.content[p] = s.beltContent p

theorem reportsFollow_iff (s : State) : ReportsFollow s ↔ ClassesFollow s ∧ QualitiesFollow s ∧ BeltsFollow s := by
  simp only [ReportsFollow, ClassesFollow, QualitiesFollow, BeltsFollow, forall_and]

/-- Entry `q` of a vector whose entry `p` is set. -/
theorem set_getElem_fin {α : Type} {n : Nat} (v : Vector α n) (p q : Fin n) (x : α) :
    (v.set p x)[q] = if q = p then x else v[q] := by
  simp [Vector.getElem_set, Fin.ext_iff, eq_comm]

theorem ClassesFollow.of_same {s t : State} (hsame : SameReports s t) (h : ClassesFollow s) : ClassesFollow t := fun p => by
  have hcontent : t.vp.cls.content = s.vp.cls.content := congrArg Holdings.clsContent hsame
  rw [hcontent, hsame.committed, h p]

theorem classesFollow_kept : KeptBySteps ClassesFollow where
  same hsame h := h.of_same (.of_holdings hsame)
  record s p r h q := by
    obtain ⟨-, -, -, hvp, -⟩ := putRecord_does s p r
    rw [hvp]
    simpa using h q
  buckle s p b h q := by
    obtain ⟨-, hvp, -⟩ := putBuckle_does s p b
    rw [hvp]
    simpa using h q
  quality s p f h q := by
    obtain ⟨hcl, hvp, -⟩ := setQuality_does s p f
    rw [hcl, hvp]
    by_cases hq : p.val = q.val <;> simpa [hq] using h q
  cls s p c h q := by
    obtain ⟨hcl, -, -, hcls⟩ := setClass_does s p c
    have hcontent : (s.setClass p c).vp.cls.content =
        if c = s.cl[p].committed then s.vp.cls.content else s.vp.cls.content.set p c := by
      rw [hcls]
      split
      · rfl
      · exact (Report.hand_does ..).1
    have hheld := h q
    rw [hcl, hcontent]
    by_cases hq : q = p
    · subst hq
      rw [classed_at]
      split
      next hsame => rw [hheld, hsame]
      next => rw [set_getElem_fin, if_pos rfl]
    · rw [classed_elsewhere s c (Ne.symm hq), ← hheld]
      split
      · rfl
      · rw [set_getElem_fin, if_neg hq]
  suppression s h := h
  blank power base pending p := by simp [State.blank]
  reset s p := by
    obtain ⟨-, -, hcl, -, -, -, hvp⟩ := resetRuntime_does s
    rw [hcl, hvp]
    simp

theorem QualitiesFollow.of_same {s t : State} (hsame : SameReports s t) (h : QualitiesFollow s) : QualitiesFollow t := fun p => by
  have hcontent : t.vp.quality.content = s.vp.quality.content := congrArg Holdings.qualityContent hsame
  rw [hcontent, hsame.quality, h p]

theorem qualitiesFollow_kept : KeptBySteps QualitiesFollow where
  same hsame h := h.of_same (.of_holdings hsame)
  record s p r h q := by
    obtain ⟨-, -, -, hvp, -⟩ := putRecord_does s p r
    rw [hvp]
    simpa using h q
  buckle s p b h q := by
    obtain ⟨-, hvp, -⟩ := putBuckle_does s p b
    rw [hvp]
    simpa using h q
  quality s p f h q := by
    obtain ⟨hcl, -, hcontent⟩ := setQuality_does s p f
    rw [hcl, hcontent, set_getElem_fin]
    by_cases hq : q = p
    · subst hq
      rw [if_pos rfl, upd_at]
    · rw [if_neg hq, upd_elsewhere _ _ _ _ (Ne.symm hq)]
      exact h q
  cls s p c h q := by
    obtain ⟨hcl, -, hquality, -⟩ := setClass_does s p c
    rw [hcl, hquality, h q]
    by_cases hq : q = p
    · subst hq
      rw [classed_at]
    · rw [classed_elsewhere s c (Ne.symm hq)]
  suppression s h := h
  blank power base pending p := by simp [State.blank]
  reset s p := by
    obtain ⟨-, -, hcl, -, -, -, hvp⟩ := resetRuntime_does s
    rw [hcl, hvp]
    simp

/-- A new record hands its belt content on where the indication can be another. -/
theorem beltsFollow_putRecord {s : State} (h : BeltsFollow s) (p : Pos) (r : ReminderRecord) : BeltsFollow (s.putRecord p r) := by
  intro q
  obtain ⟨hru, -, -, -, -, hbelt⟩ := putRecord_does s p r
  have hheld := h q
  rw [hbelt, State.beltContent, hru]
  by_cases hq : q = p
  · subst hq
    rw [set_getElem_fin, if_pos rfl]
    split
    next hsame => rw [hheld, hsame]; rfl
    next => rw [set_getElem_fin, if_pos rfl]
  · rw [set_getElem_fin, if_neg hq]
    split
    · exact hheld
    · rw [set_getElem_fin, if_neg hq]
      exact hheld

theorem BeltsFollow.of_same {s t : State} (hsame : SameReports s t) (h : BeltsFollow s) : BeltsFollow t := fun p => by
  have hcontent : t.vp.belt.content = s.vp.belt.content := congrArg Holdings.beltContent hsame
  rw [hcontent, State.beltContent, hsame.confirmed, hsame.reminder, h p]
  rfl

theorem beltsFollow_kept : KeptBySteps BeltsFollow where
  same hsame h := h.of_same (.of_holdings hsame)
  record s p r h := beltsFollow_putRecord h p r
  buckle s p b h q := by
    obtain ⟨hru, -, hbelt⟩ := putBuckle_does s p b
    have hheld := h q
    rw [hbelt, State.beltContent, hru]
    by_cases hq : q = p
    · subst hq
      rw [set_getElem_fin, if_pos rfl]
      split
      next hsame => rw [hheld, hsame]; rfl
      next => rw [set_getElem_fin, if_pos rfl]
    · rw [set_getElem_fin, if_neg hq]
      split
      · exact hheld
      · rw [set_getElem_fin, if_neg hq]
        exact hheld
  quality s p f h := h
  cls s p c h :=
    setClass_induction (Q := BeltsFollow) (fun _ p r h => beltsFollow_putRecord h p r) (fun _ _ h => h) (fun _ _ _ h => h)
      (fun _ h => h) h p c
  suppression s h := h
  blank power base pending p := by simp [State.blank, State.beltContent, Reminder.indication]
  reset s p := by
    obtain ⟨-, -, -, hru, -, -, hvp⟩ := resetRuntime_does s
    rw [State.beltContent, hru, hvp]
    simp [Reminder.indication]

theorem copiesFollow_putRecord {s : State} (h : CopiesFollow s) (p : Pos) (r : ReminderRecord) :
    CopiesFollow (s.putRecord p r) := by
  intro q
  obtain ⟨hru, -, -, -, hcopies, -⟩ := putRecord_does s p r
  have hheld := h q
  rw [hcopies, hru]
  by_cases hq : q = p
  · subst hq
    rw [set_getElem_fin, if_pos rfl]
    split
    next hsame => rw [hheld, hsame]
    next => rw [set_getElem_fin, if_pos rfl]
  · rw [set_getElem_fin, if_neg hq]
    split
    · exact hheld
    · rw [set_getElem_fin, if_neg hq]
      exact hheld

theorem copiesFollow_of_same {s t : State} (hsame : SameReports s t) (h : CopiesFollow s) : CopiesFollow t := fun p => by
  have hcopies : t.ou.reminders = s.ou.reminders := congrArg Holdings.copies hsame
  rw [hcopies, hsame.reminder, h p]

theorem copiesFollow_kept : KeptBySteps CopiesFollow where
  same hsame h := copiesFollow_of_same (.of_holdings hsame) h
  record s p r h := copiesFollow_putRecord h p r
  buckle s p b h q := by
    obtain ⟨hru, -⟩ := putBuckle_does s p b
    simpa [hru] using h q
  quality s p f h := h
  cls s p c h :=
    setClass_induction (Q := CopiesFollow) (fun _ p r h => copiesFollow_putRecord h p r) (fun _ _ h => h) (fun _ _ _ h => h)
      (fun _ h => h) h p c
  suppression s h := h
  blank power base pending p := by simp [State.blank]
  reset s p := by
    obtain ⟨-, -, -, hru, hou, -⟩ := resetRuntime_does s
    rw [hru, hou]
    simp

/-- The contents and the copies do not speak of the Position Table, so that a stored word keeps them (R160). -/
theorem step_reportsFollow {s t : State} (hreports : ReportsFollow s) (hcopies : CopiesFollow s) (hstep : step s = .next t) :
    ReportsFollow t ∧ CopiesFollow t := by
  obtain ⟨hclasses, hqualities, hbelts⟩ := (reportsFollow_iff s).mp hreports
  refine ⟨(reportsFollow_iff t).mpr ⟨?_, ?_, ?_⟩, ?_⟩
  · exact classesFollow_kept.keeps_of_positions ClassesFollow.of_same hclasses hstep
  · exact qualitiesFollow_kept.keeps_of_positions QualitiesFollow.of_same hqualities hstep
  · exact beltsFollow_kept.keeps_of_positions BeltsFollow.of_same hbelts hstep
  · exact copiesFollow_kept.keeps_of_positions copiesFollow_of_same hcopies hstep

end Sys2Proof.Machine
end

section
/-! OU's lamp groups and its chime owner (R122 to R124, R127). -/

namespace Sys2Proof.Machine

/-! ## What the derivations read -/

/-- The derived groups and the derived owner rest on OU's copies and the Position Table. -/
theorem derived_congr {s t : State} (hcopies : t.ou.reminders = s.ou.reminders) (hpositions : t.tables.positions = s.tables.positions) :
    t.groupState = s.groupState ∧ t.chimeOwner = s.chimeOwner := by
  have hentry : t.entry = s.entry := by
    funext p
    simp only [State.entry, hpositions]
  constructor
  · funext g
    have hhas (test : Reminder → Bool) : t.groupHas g test = s.groupHas g test := by
      simp only [State.groupHas, hentry, hcopies]
    simp only [State.groupState, hhas]
  · have hclaim : t.betterClaim = s.betterClaim := by
      funext best q
      simp only [State.betterClaim, hentry, hcopies]
    simp only [State.chimeOwner, hclaim]

theorem GroupsFollow.of_same {s t : State} (h : GroupsFollow s) (hgroups : t.ou.groups = s.ou.groups) (howner : t.ou.owner = s.ou.owner)
    (hcopies : t.ou.reminders = s.ou.reminders) (hpositions : t.tables.positions = s.tables.positions) : GroupsFollow t := by
  obtain ⟨hgroup, hchime⟩ := derived_congr hcopies hpositions
  refine ⟨fun g => ?_, ?_⟩
  · rw [hgroups, hgroup]
    exact h.1 g
  · rw [howner, hchime]
    exact h.2

/-! ## Deriving again -/

/-- OU stores the derived state of the group (R124). -/
theorem deriveGroup_ou (s : State) (g : Fin 6) :
    (s.deriveGroup g).ou.groups = s.ou.groups.set g (s.groupState g) ∧ (s.deriveGroup g).ou.reminders = s.ou.reminders := by
  unfold State.deriveGroup
  dsimp only
  repeat' split
  next hsame => exact ⟨by rw [hsame]; exact (Vector.set_getElem_self ..).symm, rfl⟩
  · exact ⟨rfl, rfl⟩
  · exact ⟨rfl, rfl⟩

/-- OU stores the derived owner (R127). -/
theorem deriveOwner_ou (s : State) :
    s.deriveOwner.ou.owner = s.chimeOwner ∧ s.deriveOwner.ou.groups = s.ou.groups ∧
    s.deriveOwner.ou.reminders = s.ou.reminders := by
  unfold State.deriveOwner
  dsimp only
  split
  next hsame => exact ⟨hsame.symm, rfl, rfl⟩
  next => exact ⟨rfl, rfl, rfl⟩

/-- The derived owner is the present one once it has been derived. -/
theorem groupsFollow_deriveOwner {s : State} (h : ∀ g : Fin 6, s.ou.groups[g] = s.groupState g) : GroupsFollow s.deriveOwner := by
  obtain ⟨howner, hgroups, hcopies⟩ := deriveOwner_ou s
  obtain ⟨hgroup, hchime⟩ := derived_congr (t := s.deriveOwner) hcopies (by simp)
  refine ⟨fun g => ?_, ?_⟩
  · rw [hgroups, hgroup]
    exact h g
  · rw [howner, hchime]

/-- The copy of `p` has a part in no group but its own. -/
theorem groupState_elsewhere (s : State) (p : Pos) (r : Reminder) {g : Fin 6} (h : (s.entry p).lampGroup ≠ some g) :
    State.groupState { s with ou := { s.ou with reminders := s.ou.reminders.set p r } } g = s.groupState g := by
  have hhas (test : Reminder → Bool) :
      State.groupHas { s with ou := { s.ou with reminders := s.ou.reminders.set p r } } g test = s.groupHas g test := by
    refine List.any_congr rfl fun q => ?_
    change ((s.entry q).lampGroup == some g && test (s.ou.reminders.set p r)[q]) = _
    by_cases hq : q = p
    · subst hq
      rw [beq_false_of_ne h, Bool.false_and, Bool.false_and]
    · rw [set_getElem_fin, if_neg hq]
  simp only [State.groupState, hhas]

/-- A reminder state that RU hands to OU leaves every group, and the owner, derived (R122, R124, R127). -/
theorem groupsFollow_handReminder {s : State} (h : GroupsFollow s) (p : Pos) (r : Reminder) : GroupsFollow (s.handReminder p r) := by
  have helsewhere (g : Fin 6) (hg : (s.entry p).lampGroup ≠ some g) := groupState_elsewhere s p r hg
  unfold State.handReminder
  generalize hu : ({ s with ou := { s.ou with reminders := s.ou.reminders.set p r } } : State) = u at helsewhere
  have hgroups : u.ou.groups = s.ou.groups := by rw [← hu]
  have hentry : u.entry p = s.entry p := by rw [← hu]; rfl
  dsimp only
  rw [hentry]
  split
  next g hg =>
    refine groupsFollow_deriveOwner fun k => ?_
    obtain ⟨hstored, hcopies⟩ := deriveGroup_ou u g
    obtain ⟨hgroup, -⟩ := derived_congr (t := u.deriveGroup g) hcopies (by simp)
    rw [hstored, hgroup, set_getElem_fin]
    split
    next hk => rw [hk]
    next hk => rw [hgroups, helsewhere k (by rw [hg]; exact fun e => hk (Option.some.inj e).symm), h.1 k]
  next hg =>
    refine groupsFollow_deriveOwner fun k => ?_
    rw [hgroups, helsewhere k (by rw [hg]; exact nofun), h.1 k]

theorem groupsFollow_putRecord {s : State} (h : GroupsFollow s) (p : Pos) (r : ReminderRecord) : GroupsFollow (s.putRecord p r) := by
  unfold State.putRecord
  dsimp only
  split
  · exact h
  · exact groupsFollow_handReminder (s := { s with ru := { s.ru with records := s.ru.records.set p r } }) h p r.state

/-! ## With every copy INACTIVE -/

theorem groupState_inactive {s : State} (h : ∀ p : Pos, s.ou.reminders[p] = .inactive) (g : Fin 6) : s.groupState g = .off := by
  have hhas (test : Reminder → Bool) (htest : test .inactive = false) : s.groupHas g test = false := by
    simp only [State.groupHas, h, htest, Bool.and_false, List.any_eq_false]
    exact fun _ _ => nofun
  simp [State.groupState, hhas]

theorem chimeOwner_inactive {s : State} (h : ∀ p : Pos, s.ou.reminders[p] = .inactive) : s.chimeOwner = none := by
  refine foldl_keeps (fun o : Option Pos => o) allPos s.betterClaim none fun best q => ?_
  simp only [State.betterClaim, h]
  rfl

/-- With every copy INACTIVE the groups are off and the chime has no owner, whatever the Position Table says. -/
theorem groupsFollow_inactive {s : State} (h : ∀ p : Pos, s.ou.reminders[p] = .inactive) :
    GroupsFollow s ↔ (∀ g : Fin 6, s.ou.groups[g] = .off) ∧ s.ou.owner = none := by
  simp only [GroupsFollow, groupState_inactive h, chimeOwner_inactive h]

/-! ## Every step -/

theorem groupsFollow_kept : KeptBySteps GroupsFollow where
  same hsame h :=
    h.of_same (congrArg Holdings.groups hsame) (congrArg Holdings.owner hsame) (congrArg Holdings.copies hsame)
      (congrArg Holdings.positions hsame)
  record s p r h := groupsFollow_putRecord h p r
  buckle s p b h := h.of_same (by simp) (by simp) (by simp) (by simp)
  quality s p f h := h
  cls s p c h :=
    setClass_induction (Q := GroupsFollow) (fun _ p r h => groupsFollow_putRecord h p r) (fun _ _ h => h) (fun _ _ _ h => h)
      (fun _ h => h) h p c
  suppression s h := h
  blank power base pending := (groupsFollow_inactive fun p => by simp [State.blank]).mpr ⟨fun g => by simp [State.blank], rfl⟩
  reset s := by
    obtain ⟨-, -, -, -, hou, -⟩ := resetRuntime_does s
    refine (groupsFollow_inactive fun p => ?_).mpr ⟨fun g => ?_, ?_⟩ <;> rw [hou] <;> simp

/-- A word of the Position Table is stored in CONFIG alone, where every reminder is INACTIVE (R110, R156). -/
theorem groupsFollow_stored {s t : State} (h : GroupsFollow s) (hcopies : CopiesFollow s) (hclosed : RemindersClosed s)
    (hstored : Stored s t) : GroupsFollow t := by
  obtain ⟨u, htold, hsame, hopen⟩ := hstored.told
  refine groupsFollow_kept.told htold ?_
  have hgroups : u.ou.groups = s.ou.groups := congrArg Holdings.groups hsame
  have howner : u.ou.owner = s.ou.owner := congrArg Holdings.owner hsame
  have hheld : u.ou.reminders = s.ou.reminders := congrArg Holdings.copies hsame
  rcases hopen with hpositions | hconfig
  · exact h.of_same hgroups howner hheld hpositions
  · have hinactive (p : Pos) : s.ou.reminders[p] = .inactive := (hcopies p).trans (hclosed.1 (.inl hconfig) p)
    rw [groupsFollow_inactive (by rw [hheld]; exact hinactive), hgroups, howner]
    exact (groupsFollow_inactive hinactive).mp h

/-! ## What the derivations say -/

theorem groupHas_iff {s : State} (h : CopiesFollow s) (g : Fin 6) (test : Reminder → Bool) :
    s.groupHas g test = true ↔ ∃ p : Pos, (s.entry p).lampGroup = some g ∧ test s.ru.records[p].state = true := by
  simp only [State.groupHas, List.any_eq_true, Bool.and_eq_true, beq_iff_eq, mem_allPos, true_and, h _]

/-- The claim of `p` to the chime stands against that of `q` (R127). -/
def State.Outranks (s : State) (p q : Pos) : Prop :=
  (s.entry q).chimePriority ≤ (s.entry p).chimePriority ∧ ((s.entry q).chimePriority = (s.entry p).chimePriority → p ≤ q)

theorem State.Outranks.refl (s : State) (p : Pos) : s.Outranks p p := ⟨le_refl _, fun _ => le_refl _⟩

theorem State.Outranks.antisymm {s : State} {p q : Pos} (hpq : s.Outranks p q) (hqp : s.Outranks q p) : p = q := by
  have hequal := le_antisymm hpq.1 hqp.1
  exact le_antisymm (hpq.2 hequal) (hqp.2 hequal.symm)

theorem State.Outranks.of_lt {s : State} {p q : Pos} (h : (s.entry q).chimePriority < (s.entry p).chimePriority) :
    s.Outranks p q := ⟨h.le, fun e => absurd e h.ne⟩

/-- Of the positions of `ps` that are in STAGE_2, `o` is the one whose claim stands against the others, and none where there is none
(R127). -/
def State.BestOf (s : State) (ps : List Pos) : Option Pos → Prop
  | none => ∀ q ∈ ps, s.ou.reminders[q] ≠ .stage2
  | some p => p ∈ ps ∧ s.ou.reminders[p] = .stage2 ∧ ∀ q ∈ ps, s.ou.reminders[q] = .stage2 → s.Outranks p q

/-- A position behind the others takes the chime from the best of them with a higher priority alone (R127). -/
theorem bestOf_betterClaim {s : State} {ps : List Pos} {o : Option Pos} {q : Pos} (h : s.BestOf ps o) (hlast : ∀ p ∈ ps, p < q) :
    s.BestOf (ps ++ [q]) (s.betterClaim o q) := by
  have hself : ∀ r ∈ [q], s.ou.reminders[r] = .stage2 → s.Outranks q r :=
    List.forall_mem_singleton.mpr fun _ => .refl s q
  unfold State.betterClaim
  by_cases hq : s.ou.reminders[q] = .stage2
  · rw [if_pos hq]
    cases o with
    | none => exact ⟨by simp, hq, List.forall_mem_append.mpr ⟨fun r hr hstage => absurd hstage (h r hr), hself⟩⟩
    | some b =>
      obtain ⟨hmem, hstage, hbest⟩ := h
      dsimp only
      split
      next hlt =>
        exact ⟨by simp, hq, List.forall_mem_append.mpr ⟨fun r hr hr' => .of_lt ((hbest r hr hr').1.trans_lt hlt), hself⟩⟩
      next hnot =>
        have houtranks : s.Outranks b q := ⟨Nat.not_lt.mp hnot, fun _ => (hlast b hmem).le⟩
        exact ⟨by simp [hmem], hstage, List.forall_mem_append.mpr ⟨hbest, List.forall_mem_singleton.mpr fun _ => houtranks⟩⟩
  · rw [if_neg hq]
    cases o with
    | none => exact List.forall_mem_append.mpr ⟨h, List.forall_mem_singleton.mpr hq⟩
    | some b =>
      obtain ⟨hmem, hstage, hbest⟩ := h
      exact ⟨by simp [hmem], hstage, List.forall_mem_append.mpr
        ⟨hbest, List.forall_mem_singleton.mpr fun hr => absurd hr hq⟩⟩

theorem bestOf_foldl (s : State) {ps : List Pos} (h : ps.Pairwise (· < ·)) : s.BestOf ps (ps.foldl s.betterClaim none) := by
  induction ps using List.reverseRecOn with
  | nil => exact fun _ => nofun
  | append_singleton ps q ih =>
    obtain ⟨hsorted, -, hlast⟩ := List.pairwise_append.mp h
    rw [List.foldl_append]
    exact bestOf_betterClaim (ih hsorted) fun p hp => hlast p hp q (by simp)

/-- The derived owner is the position in STAGE_2 with the best claim (R127). -/
theorem chimeOwner_iff (s : State) (p : Pos) : s.chimeOwner = some p ↔
    s.ou.reminders[p] = .stage2 ∧ ∀ q : Pos, s.ou.reminders[q] = .stage2 → s.Outranks p q := by
  have hbest : s.BestOf allPos s.chimeOwner := bestOf_foldl s (by decide)
  cases howner : s.chimeOwner with
  | none =>
    rw [howner] at hbest
    exact ⟨nofun, fun ⟨hstage, _⟩ => absurd hstage (hbest p (mem_allPos p))⟩
  | some b =>
    rw [howner] at hbest
    obtain ⟨-, hstage, houtranks⟩ := hbest
    constructor
    · rintro ⟨⟩
      exact ⟨hstage, fun q => houtranks q (mem_allPos q)⟩
    · rintro ⟨hp, hp'⟩
      exact congrArg some ((houtranks p (mem_allPos p) hp).antisymm (hp' b hstage))

theorem groupState_flashing_iff {s : State} {g : Fin 6} : s.groupState g = .flashing ↔ s.groupHas g (· == .stage2) = true := by
  unfold State.groupState
  split
  next h => simp [h]
  next h => split <;> simp [h]

theorem groupState_steady_iff {s : State} {g : Fin 6} : s.groupState g = .steady ↔
    ¬ s.groupHas g (· == .stage2) = true ∧ s.groupHas g (fun r => r == .stage1 || r == .expired) = true := by
  unfold State.groupState
  split
  next h => simp [h]
  next h => split <;> simp_all

/-- Settles O57: the contents and the copies, the groups and the owner are promises that each operation keeps; and the derivations are
what R124 and R127 say. -/
theorem everyStepKeepsTheReportsCurrent : Obligations.EveryStepKeepsTheReportsCurrent := by
  refine ⟨fun s t => step_reportsFollow, fun s t hgroups hcopies hclosed hstep => ?_, fun s hcopies => ⟨fun g => ?_, fun p => ?_⟩⟩
  · exact groupsFollow_kept.keeps
      (fun q _ hstored => groupsFollow_stored (s := { s with pending := q }) hgroups hcopies hclosed hstored) hgroups hstep
  · dsimp only
    rw [groupState_flashing_iff, groupState_steady_iff, groupHas_iff hcopies, groupHas_iff hcopies]
    simp
  · rw [chimeOwner_iff, hcopies p]
    simp only [hcopies _, State.Outranks]

end Sys2Proof.Machine
end

section
/-! The levels of the output lines (R94, R123, R125, R129 to R134). -/

namespace Sys2Proof.Machine

theorem suppression_eq_suppress_iff (c : Cls) : c.suppression = .suppress ↔ c ≠ .adult ∧ c ≠ .unknown := by
  cases c <;> simp [Cls.suppression]

/-- SUPPRESS of a powered part is high while OU's copy for position A says so (R134). -/
theorem suppressLine_iff {s : State} (hs : s.power = .on) : s.suppressLine = true ↔ s.ou.suppA = some .suppress := by
  simp [State.suppressLine, hs]

/-- A cadence is high from its on_start to its on_end, and within its total (R125). -/
theorem cadence_output_iff (c : Cadence) (n : Nat) : c.output n = true ↔ c.onStart ≤ n ∧ n < c.onEnd ∧ n < c.total := by
  simp [Cadence.output]

theorem lampLine_run {s : State} (hs : s.power = .on) (hmode : s.mode = .run) (g : Fin 6) : s.lampLine g = s.lampInRun g := by
  simp [State.lampLine, hs, hmode]

theorem chimeLine_run {s : State} (hs : s.power = .on) (hmode : s.mode = .run) : s.chimeLine = s.chimeInRun := by
  simp [State.chimeLine, hs, hmode]

/-- LAMPg in RUN is low, high or in the flash cadence (R129). -/
theorem lampInRun_eq (s : State) (g : Fin 6) :
    (s.ou.groups[g] = .off → s.lampInRun g = false) ∧ (s.ou.groups[g] = .steady → s.lampInRun g = true) ∧
    (s.ou.groups[g] = .flashing → s.lampInRun g = s.flashCadence.output s.ou.flash) := by
  unfold State.lampInRun
  refine ⟨fun h => ?_, fun h => ?_, fun h => ?_⟩ <;> rw [h]

theorem ignitionOn_iff (s : State) : s.ignitionOn = true ↔ s.vp.powerMode = .run ∨ s.vp.powerMode = .crank := by
  unfold State.ignitionOn
  cases s.vp.powerMode <;> simp [PowerMode.ignition]

/-- CHIME in RUN sounds the owner's cadence with the ignition on (R130). -/
theorem chimeInRun_iff (s : State) : s.chimeInRun = true ↔
    ∃ p : Pos, s.ou.owner = some p ∧ s.ignitionOn = true ∧ (s.chimeCadence p).output s.ou.chime = true := by
  unfold State.chimeInRun
  cases s.ou.owner <;> simp

/-- Outside RUN an enabled override gives a lamp its level, and without one it is low in CONFIG and held in HOLD (R131, R132). -/
theorem lampLine_override {s : State} (hs : s.power = .on) (hmode : s.mode ≠ .run) {g : Fin 6} {o : Fin 7} (ho : o.val = g.val) :
    s.lampLine g = if s.ou.overrides[o].enable = true then s.ou.overrides[o].latched
      else if s.mode = .hold then s.ou.held[g] else false := by
  obtain rfl : o = g.castSucc := Fin.ext ho
  cases h : s.mode with
  | run => exact absurd h hmode
  | hold => simp [State.lampLine, hs, h, Override.level]
  | config => simp [State.lampLine, hs, h, Override.level]

/-- Outside RUN an enabled override gives CHIME its level, and without one it is low (R131, R132). -/
theorem chimeLine_override {s : State} (hs : s.power = .on) (hmode : s.mode ≠ .run) :
    s.chimeLine = if s.ou.overrides[(6 : Fin 7)].enable = true then s.ou.overrides[(6 : Fin 7)].latched else false := by
  cases h : s.mode with
  | run => exact absurd h hmode
  | hold => simp [State.chimeLine, hs, h, Override.level]
  | config => simp [State.chimeLine, hs, h, Override.level]

/-- Settles O56: SUPPRESS by what the invariant says of OU's copy, LAMPg and CHIME by mode. -/
theorem suppressLineFollowsPositionA : Obligations.SuppressLineFollowsPositionA := by
  refine fun s hs => ⟨fun hfollows hreported => ?_, fun hmode => ⟨fun g => ?_, ?_⟩, fun hmode => ⟨fun g o ho => ?_, ?_⟩⟩
  · rw [suppressLine_iff hs, hreported.1]
    simp only [Option.map_eq_some_iff, exists_exists_and_eq_and, State.suppEntry, hfollows _, suppression_eq_suppress_iff]
  · rw [lampLine_run hs hmode]
    obtain ⟨hoff, hsteady, hflashing⟩ := lampInRun_eq s g
    exact ⟨hoff, hsteady, fun h => by rw [hflashing h]; exact cadence_output_iff ..⟩
  · rw [chimeLine_run hs hmode, chimeInRun_iff]
    simp only [ignitionOn_iff, cadence_output_iff, State.chimeCadence]
  · exact lampLine_override hs hmode ho
  · exact chimeLine_override hs hmode

end Sys2Proof.Machine
end

section
/-! Storing a table word and reading it back (R157, R160, R178). -/

namespace Sys2Proof.Machine

/-! ## Bit fields -/

theorem bits_lt (v : Word) (lo width : Nat) : bits v lo width < 2 ^ width := Nat.mod_lt _ (Nat.two_pow_pos width)

/-- A flag of one bit reads as its bit. -/
theorem flag_bit (v : Word) (lo : Nat) : flag (bits v lo 1 == 1) = bits v lo 1 := by
  have hlt := bits_lt v lo 1
  obtain h | h : bits v lo 1 = 0 ∨ bits v lo 1 = 1 := by omega
  all_goals rw [h]; rfl

/-- A word is in its range when each of its fields is, and no other bit is set (R157). -/
theorem inRange_iff {fields : List Field} {v : Word} : inRange fields v = true ↔
    (∀ f ∈ fields, f.least ≤ f.value v ∧ f.value v ≤ f.most ∨ f.also = some (f.value v)) ∧
    (fields.map fun f => f.value v * 2 ^ f.lo).sum = v.toNat := by
  simp [inRange, Field.ok]

/-- A word of one field from bit 0 on, in its range, is the value of the field (R157). -/
theorem value_of_inRange_single {f : Field} {v : Word} (hlo : f.lo = 0) (h : inRange [f] v = true) : f.value v = v.toNat := by
  simpa [hlo] using (inRange_iff.mp h).2

/-- The station of a code of 0 to 8 has that code (R178). -/
theorem stationCode_stationOf {n : Nat} (h : n ≤ 8) : stationCode (stationOf n) = n := by
  unfold stationOf
  split
  next hzero => exact hzero.symm
  next hpos =>
    simp only [stationCode, stationNumber, Fin.val_ofNat]
    omega

/-- The lamp group of a code of 0 to 5 or 7 has that code (R178). -/
theorem groupCode_groupOf {n : Nat} (h : n ≤ 5 ∨ n = 7) : groupCode (groupOf n) = n := by
  unfold groupOf
  split
  · simp only [groupCode, Fin.val_ofNat]
    omega
  · simp only [groupCode]
    omega

theorem code_bankOf {n : Nat} (h : n < 2) : (bankOf n).code = n := by
  obtain rfl | rfl : n = 0 ∨ n = 1 := by omega
  all_goals rfl

/-! ## The words of an entry -/

/-- A threshold bank after a store, word by word. -/
theorem Thresholds.read_store (b : Thresholds) (w u : Fin 9) (v : Word) :
    (b.store w v).read u = if u = w then (bankLayout w).value v else b.read u := by
  fin_cases w <;> fin_cases u <;> rfl

/-- A reminder profile after a store, word by word. -/
theorem Profile.read_store (f : Profile) (w u : Fin 9) (v : Word) :
    (f.store w v).read u = if u = w then (profileLayout w).value v else f.read u := by
  have hflag := flag_bit v 0
  fin_cases w <;> fin_cases u <;> try rfl
  exact hflag

/-- The Global Settings after a store, word by word. -/
theorem GlobalSettings.read_store (g : GlobalSettings) (w u : Fin 11) (v : Word) :
    (g.store w v).read u = if u = w then (globalsLayout w).value v else g.read u := by
  have hflag := flag_bit v 0
  fin_cases w <;> fin_cases u <;> try rfl
  exact hflag

theorem VehicleInput.read_store (i : VehicleInput) (w u : Fin 2) (v : Word) :
    (i.store w v).read u = if u = w then bits v 0 (if w = 0 then 11 else 3) else i.read u := by
  have hident : (BitVec.ofNat 11 (bits v 0 11)).toNat = bits v 0 11 := Nat.mod_eq_of_lt (bits_lt v 0 11)
  have hbyte : (Fin.ofNat 8 (bits v 0 3)).val = bits v 0 3 := Nat.mod_eq_of_lt (bits_lt v 0 3)
  fin_cases w <;> fin_cases u <;> try rfl
  · exact hident
  · exact hbyte

theorem Override.read_store (o : Override) (w u : Fin 2) (v : Word) :
    (o.store w v).read u = if u = w then bits v 0 1 else o.read u := by
  have hflag := flag_bit v 0
  fin_cases w <;> fin_cases u <;> try rfl
  all_goals exact hflag

/-- A Calibration Table entry after a store, word by word. -/
theorem CalibrationEntry.read_store (k : CalibrationEntry) (w u : Fin 49) (v : Word) :
    (k.store w v).read u = if u = w then (calibrationLayout w).value v else k.read u := by
  have hne (h : u ≠ w) : u.val ≠ w.val := fun e => h (Fin.ext e)
  unfold CalibrationEntry.store calibrationLayout
  by_cases hu : u = w
  · subst hu
    rw [if_pos rfl]
    split
    next hid => exact (if_pos hid).trans (Nat.mod_eq_of_lt (bits_lt v 0 8))
    next hid =>
      split
      next hoffset => simp [CalibrationEntry.read, hid, hoffset, Field.value, low]
      next hgain => simp [CalibrationEntry.read, hid, hgain, Field.value, low]
  · have hval := hne hu
    rw [if_neg hu]
    split
    next hid =>
      have hother : ¬ u.val = 0 := by omega
      simp [CalibrationEntry.read, hother]
    next hid =>
      split
      next hoffset =>
        unfold CalibrationEntry.read
        split
        · rfl
        split
        · exact (set_getElem_fin ..).trans (if_neg fun e => by simp only [Fin.ext_iff, Fin.val_ofNat] at e; omega)
        · rfl
      next hgain =>
        unfold CalibrationEntry.read
        split
        · rfl
        split
        · rfl
        · exact (set_getElem_fin ..).trans (if_neg fun e => by simp only [Fin.ext_iff, Fin.val_ofNat] at e; omega)

/-- The other words of a Position Table entry stand at a store. -/
theorem PositionEntry.read_store_other (e : PositionEntry) {w u : Fin 4} (v : Word) (h : u ≠ w) :
    (e.store w v).read u = e.read u := by
  fin_cases w <;> fin_cases u <;> try rfl
  all_goals exact absurd rfl h

/-- A word in its range is read back as it was stored (R157, R178). -/
theorem PositionEntry.read_store_same (e : PositionEntry) (w : Fin 4) {v : Word} (h : inRange (positionLayout w) v = true) :
    (e.store w v).read w = v.toNat := by
  match w, h with
  | 0, h =>
    obtain ⟨hranges, hsum⟩ := inRange_iff.mp h
    have hstation : bits v 0 4 ≤ 8 := by simpa [positionLayout, low, Field.value] using hranges (low 4 0 8) (by simp [positionLayout])
    have hplace := bits_lt v 4 2
    have hvalue : bits v 0 4 + bits v 4 2 * 16 = v.toNat := by simpa [positionLayout, low, Field.value] using hsum
    simp only [PositionEntry.store, PositionEntry.read, stationCode_stationOf hstation, Fin.val_ofNat]
    omega
  | 1, h =>
    obtain ⟨hranges, hsum⟩ := inRange_iff.mp h
    have hgroup : bits v 0 3 ≤ 5 ∨ bits v 0 3 = 7 := by
      simpa [positionLayout, Field.value, eq_comm] using
        hranges { lo := 0, width := 3, least := 0, most := 5, also := some 7 } (by simp [positionLayout])
    have hprofile := bits_lt v 4 2
    have hbank := bits_lt v 6 1
    have hvalue : bits v 0 3 + (bits v 4 2 * 16 + (bits v 6 1 * 64 + (bits v 8 1 * 256 + bits v 9 1 * 512))) = v.toNat := by
      simpa [positionLayout, Field.value] using hsum
    simp only [PositionEntry.store, PositionEntry.read, groupCode_groupOf hgroup, code_bankOf hbank, flag_bit, Fin.val_ofNat]
    omega
  | 2, h => exact value_of_inRange_single rfl h
  | 3, h => exact (flag_bit v 0).trans (value_of_inRange_single rfl h)

end Sys2Proof.Machine
end

section
/-! The words that a write touches: what is read after it at its own address and at every other (R159, R160, R178). -/

namespace Sys2Proof.Machine

theorem wordOf_toNat (v : Word) : wordOf v.toNat = v := BitVec.ofNat_toNat ..

/-- Entry `q` after an update at `p`. -/
theorem upd_getElem_fin {α : Type} {n : Nat} (v : Vector α n) (p q : Fin n) (f : α → α) :
    (upd v p f)[q] = if q = p then f v[q] else v[q] := by
  simp [Fin.ext_iff, eq_comm]

/-- A stored word in its range is read back (R157, R178). -/
theorem readAt_storeWord_same (s : State) {a : Address} {v : Word} (htable : a.isView = false) (h : inRange a.layout v = true) :
    (s.storeWord a v).readAt a = v := by
  refine Eq.trans (congrArg wordOf ?_) (wordOf_toNat v)
  cases a with
  | position p w =>
    change (upd s.tables.positions p fun e => e.store w v)[p].read w = _
    rw [upd_at, PositionEntry.read_store_same _ _ h]
  | calibration e w =>
    change (upd s.tables.calibration e fun k => k.store w v)[e].read w = _
    rw [upd_at, CalibrationEntry.read_store, if_pos rfl]
    refine value_of_inRange_single ?_ h
    unfold calibrationLayout
    (repeat' split) <;> rfl
  | bank name w =>
    have hvalue : (bankLayout w).value v = v.toNat := value_of_inRange_single (by fin_cases w <;> rfl) h
    cases name <;> exact (Thresholds.read_store ..).trans ((if_pos rfl).trans hvalue)
  | profile e w =>
    change (upd s.tables.profiles e fun f => f.store w v)[e].read w = _
    rw [upd_at, Profile.read_store, if_pos rfl]
    exact value_of_inRange_single (by fin_cases w <;> rfl) h
  | schedule i =>
    change stationCode (s.tables.schedule.set i (stationOf (bits v 0 4)))[i] = _
    obtain ⟨hranges, -⟩ := inRange_iff.mp h
    have hstation : bits v 0 4 ≤ 8 := by simpa [Address.layout, low, Field.value] using hranges (low 4 0 8) (by simp [Address.layout])
    rw [set_getElem_fin, if_pos rfl, stationCode_stationOf hstation]
    exact value_of_inRange_single rfl h
  | globals w =>
    exact (GlobalSettings.read_store ..).trans ((if_pos rfl).trans (value_of_inRange_single (by fin_cases w <;> rfl) h))
  | input e w =>
    have hvalue : bits v 0 (if w = 0 then 11 else 3) = v.toNat := by
      match w, h with
      | 0, h => exact value_of_inRange_single (f := low 11 0 2047) rfl h
      | 1, h => exact value_of_inRange_single (f := low 3 0 7) rfl h
    match e with
    | 0 | 1 => exact (VehicleInput.read_store ..).trans ((if_pos rfl).trans hvalue)
  | override e w =>
    change (upd s.ou.overrides e fun o => o.store w v)[e].read w = _
    rw [upd_at, Override.read_store, if_pos rfl]
    exact value_of_inRange_single rfl h
  | node | context => cases htable

/-- Words that a view shows of CL, RU and SS apart, what is read rests on the tables, the overrides and the Node Map (R178, R179). -/
theorem readAt_congr {s t : State} (htables : t.tables = s.tables) (hoverrides : t.ou.overrides = s.ou.overrides) (hsm : t.sm = s.sm)
    {b : Address} (hb : ∀ p w, b ≠ .context p w) : t.readAt b = s.readAt b := by
  unfold State.readAt
  cases b with
  | context p w => exact absurd rfl (hb p w)
  | _ => simp only [htables, hoverrides, hsm]

/-- Where an entry of a table is updated and word `w` of it changes, every other word of the table is read as before. -/
theorem read_upd {α : Type} {n m : Nat} {read : α → Fin m → Nat} {f : α → α} {w u : Fin m} (v : Vector α n) {p q : Fin n}
    (hother : ∀ e, u ≠ w → read (f e) u = read e u) (hne : q = p → u ≠ w) : read (upd v p f)[q] u = read v[q] u := by
  rw [upd_getElem_fin]
  split
  next hq => exact hother _ (hne hq)
  next => rfl

/-- A stored word leaves every other table word, and the Node Map (R160). -/
theorem readAt_storeWord_other (s : State) {a b : Address} (v : Word) (hne : b ≠ a) (hb : ∀ p w, b ≠ .context p w) :
    (s.storeWord a v).readAt b = s.readAt b := by
  refine congrArg wordOf ?_
  cases a with
  | position p w =>
    cases b with
    | position q u =>
      exact read_upd s.tables.positions (fun e => e.read_store_other v) fun hq hu => hne (by rw [hq, hu])
    | _ => rfl
  | calibration p w =>
    cases b with
    | calibration q u =>
      exact read_upd s.tables.calibration (fun e hu => (e.read_store w u v).trans (if_neg hu)) fun hq hu => hne (by rw [hq, hu])
    | _ => rfl
  | bank name w =>
    cases b with
    | bank other u =>
      have hbank (t : Thresholds) (hname : name = other) : (t.store w v).read u = t.read u :=
        (t.read_store w u v).trans (if_neg fun hu => hne (by rw [hname, hu]))
      cases name <;> cases other
      · exact hbank _ rfl
      · rfl
      · rfl
      · exact hbank _ rfl
    | _ => cases name <;> rfl
  | profile p w =>
    cases b with
    | profile q u =>
      exact read_upd s.tables.profiles (fun e hu => (e.read_store w u v).trans (if_neg hu)) fun hq hu => hne (by rw [hq, hu])
    | _ => rfl
  | schedule i =>
    cases b with
    | schedule j =>
      exact congrArg stationCode ((set_getElem_fin ..).trans (if_neg fun hj => hne (by rw [hj])))
    | _ => rfl
  | globals w =>
    cases b with
    | globals u => exact (GlobalSettings.read_store ..).trans (if_neg fun hu => hne (by rw [hu]))
    | _ => rfl
  | input e w =>
    cases b with
    | input k u =>
      have hinput (i : VehicleInput) (he : e = k) : (i.store w v).read u = i.read u :=
        (i.read_store w u v).trans (if_neg fun hu => hne (by rw [he, hu]))
      match e, k with
      | 0, 0 | 1, 1 => exact hinput _ rfl
      | 0, 1 | 1, 0 => rfl
    | _ => match e with | 0 | 1 => rfl
  | override p w =>
    cases b with
    | override q u =>
      exact read_upd s.ou.overrides (fun e hu => (e.read_store w u v).trans (if_neg hu)) fun hq hu => hne (by rw [hq, hu])
    | _ => rfl
  | node | context => rfl

end Sys2Proof.Machine
end

section
/-! Contents handed to VP one after the other, and the suppression of positions A and B given out (R96, R97, R140 to R142). -/

namespace Sys2Proof.Machine

/-! ## Hand-overs -/

section
variable {κ : Type} [DecidableEq κ]

theorem handed_hand (r : Report κ) (c : κ) (period gap : Nat) : Handed r (r.hand c period gap) c period gap := by
  refine ⟨r.hand_eq c period gap, ?_⟩
  rw [Report.hand_due]
  simp [Report.dueNow]

end

theorem handed_same {κ : Type} (r : Report κ) (period gap : Nat) : Handed r r r.content period gap :=
  ⟨rfl, by simp⟩

/-- Content that is as it was changes nothing (R141). -/
theorem Handed.eq_of_same {κ : Type} {r u : Report κ} {period gap : Nat} (h : Handed r u r.content period gap) : u = r := by
  obtain ⟨hu, hdue⟩ := h
  have hsame : u.due = r.due := by simpa using hdue
  rw [hu, hsame]

section
variable {α κ : Type} {content other : α → κ → κ} {period gap : Nat}

/-- One more content is handed on. -/
theorem HandedInTurn.concat {xs : List α} {x : α} {r m u : Report κ} (hxs : HandedInTurn content period gap xs r m)
    (hx : Handed m u (content x m.content) period gap) : HandedInTurn content period gap (xs ++ [x]) r u := by
  induction xs generalizing r with
  | nil =>
    obtain rfl : m = r := hxs
    exact ⟨u, hx, rfl⟩
  | cons y xs ih =>
    obtain ⟨n, hy, hrest⟩ := hxs
    exact ⟨n, hy, ih hrest⟩

theorem HandedInTurn.congr {xs : List α} {r u : Report κ} (hsame : ∀ x ∈ xs, ∀ c, content x c = other x c)
    (h : HandedInTurn content period gap xs r u) : HandedInTurn other period gap xs r u := by
  induction xs generalizing r with
  | nil => exact h
  | cons y xs ih =>
    obtain ⟨m, hy, hrest⟩ := h
    rw [hsame y List.mem_cons_self] at hy
    exact ⟨m, hy, ih (fun x hx => hsame x (List.mem_cons_of_mem y hx)) hrest⟩

end

/-! ## Positions A and B -/

/-- In an ascending list, place `i` holds the entry that has `i` entries below it. -/
theorem getElem?_eq_some_iff_below {l : List Pos} (h : l.Pairwise (· < ·)) (i : Nat) (q : Pos) :
    l[i]? = some q ↔ q ∈ l ∧ (l.filter (· < q)).length = i := by
  induction l generalizing i with
  | nil => simp
  | cons a l ih =>
    obtain ⟨hfirst, hrest⟩ := List.pairwise_cons.mp h
    by_cases hq : q = a
    · subst hq
      have hnone : l.filter (· < q) = [] := List.filter_eq_nil_iff.mpr fun r hr => by simpa using (hfirst r hr).le
      have hnew : q ∉ l := fun hr => lt_irrefl q (hfirst q hr)
      cases i with
      | zero => simp [hnone]
      | succ i => simpa [hnone] using fun hr => hnew (List.mem_of_getElem? hr)
    · have hfilter (hr : q ∈ l) : (a :: l).filter (· < q) = a :: l.filter (· < q) :=
        List.filter_cons_of_pos (by simpa using hfirst q hr)
      cases i with
      | zero =>
        have hpos (hr : q ∈ l) : ((a :: l).filter (· < q)).length ≠ 0 := by rw [hfilter hr]; nofun
        simpa [hq, Ne.symm hq] using hpos
      | succ i =>
        rw [List.getElem?_cons_succ, ih hrest, List.mem_cons, or_iff_right hq]
        refine and_congr_right fun hr => ?_
        rw [hfilter hr, List.length_cons, Nat.add_right_cancel_iff]

/-- The position at place `i` of the airbag-relevant ones is the flagged position with `i` flagged ones below it (R96). -/
theorem airbagPositions_getElem?_iff (t : Tables) (i : Nat) (q : Pos) : t.airbagPositions[i]? = some q ↔
    t.positions[q].airbag = true ∧ (Finset.univ.filter fun r : Pos => r < q ∧ t.positions[r].airbag = true).card = i := by
  have hsorted : t.airbagPositions.Pairwise (· < ·) := List.Pairwise.filter _ (by decide)
  have hcard : (Finset.univ.filter fun r : Pos => r < q ∧ t.positions[r].airbag = true).card =
      (t.airbagPositions.filter (· < q)).length := by
    rw [Tables.airbagPositions, List.filter_filter, ← List.filter_congr (p := fun r => decide (r < q ∧ t.positions[r].airbag = true))]
    · rfl
    · simp
  rw [getElem?_eq_some_iff_below hsorted, hcard]
  simp [Tables.airbagPositions, mem_allPos]

/-! ## The suppression given out -/

theorem giveSuppression_handed (s : State) : SuppressionHanded s s.giveSuppression := by
  obtain ⟨hou, -⟩ := giveSuppression_does s
  refine ⟨?_, handed_hand ..⟩
  rw [hou, Option.map_map]
  rfl

/-- Where OU and VP know of A and B, giving the suppression out changes nothing (R140). -/
theorem giveSuppression_of_reported {s : State} (h : SuppressionReported s) : s.giveSuppression = s := by
  obtain ⟨hou, hvp⟩ := h
  unfold State.giveSuppression Report.hand
  dsimp only
  rw [if_pos hvp.symm, ← hou]

/-- New flags are written, and the suppression of the positions that A and B are by then is given out (R96, R97). -/
theorem flagsWritten_giveSuppression {s u : State} (hcl : u.cl = s.cl) (hru : u.ru = s.ru) (hou : u.ou = s.ou) (hvp : u.vp = s.vp) :
    FlagsWritten s u.giveSuppression := by
  have hhanded := giveSuppression_handed u
  rw [SuppressionHanded, hvp] at hhanded
  refine ⟨hcl, hru, ?_, ?_, hhanded, fun q => ⟨airbagPositions_getElem?_iff .., airbagPositions_getElem?_iff ..⟩⟩
  · rw [← hou]
    rfl
  · rw [← hvp]
    rfl

end Sys2Proof.Machine
end

section
/-! Positions fitted and unfitted by a write (R95, R98, R161). -/

namespace Sys2Proof.Machine

/-! ## One position -/

/-- CL's record of a position that was fitted before a write as `was` says, and is after it as `fit` says (R98). -/
def ClassRecord.refitted (r : ClassRecord) (was fit : Bool) : ClassRecord :=
  if was && !fit then
    { r with committed := .notConfigured, supp := .suppress, quality := { r.quality with linkDown := false, defaultCal := false } }
  else if !was && fit then { r with committed := .unknown, supp := .indeterminate }
  else r

/-- What a write of the station of `p` makes of CL, RU, OU and VP, from `u` to `t`, where `was` says whether `p` was fitted before
it (R95, R98). -/
structure FittingTaken (was : Bool) (p : Pos) (u t : State) : Prop where
  tables : t.tables = u.tables
  record : t.cl = u.cl.set p (u.cl[p].refitted was (u.fitted p))
  cls : Handed u.vp.cls t.vp.cls
    (if t.cl[p].committed ≠ u.cl[p].committed then u.vp.cls.content.set p t.cl[p].committed else u.vp.cls.content) u.statusPeriod 20
  quality : Handed u.vp.quality t.vp.quality
    (if was && !u.fitted p then u.vp.quality.content.set p t.cl[p].quality else u.vp.quality.content) u.statusPeriod 20
  given : t.cl[p].committed ≠ u.cl[p].committed → (u.entry p).airbag = true → SuppressionHanded u t
  kept : ¬ (t.cl[p].committed ≠ u.cl[p].committed ∧ (u.entry p).airbag = true) →
    t.vp.suppression = u.vp.suppression ∧ t.ou.suppA = u.ou.suppA
  closed : u.ru.records[p].state = .inactive →
    t.ru = (if t.cl[p].committed ≠ u.cl[p].committed ∧ (was && !u.fitted p) = true then u.ru.put p .toInactive else u.ru) ∧
    t.ou = { u.ou with suppA := t.ou.suppA } ∧
    t.vp = { u.vp with cls := t.vp.cls, quality := t.vp.quality, suppression := t.vp.suppression }

/-- The class of no person at an INACTIVE position clears the reminder record, and is handed on no further (R117, R118). -/
theorem reminderClass_inactive {s : State} {p : Pos} {old new : Cls} (h : s.ru.records[p].state = .inactive)
    (hnew : new = .unknown ∨ new = .notConfigured) :
    s.reminderClass p old new = { s with ru := if new = .notConfigured then s.ru.put p .toInactive else s.ru } := by
  rcases hnew with rfl | rfl
  · unfold State.reminderClass State.reminderUnknown
    dsimp only
    rw [if_pos rfl]
    rw [h]
    rfl
  · have hcleared : s.reminderClass p old .notConfigured = s.putRecord p .toInactive := rfl
    rw [hcleared]
    unfold State.putRecord
    dsimp only
    rw [if_pos (by rw [h]; rfl)]
    rfl

/-- The suppression is given out with a new class of an airbag-relevant position, and with no other (R95, R96). -/
theorem setClass_suppression (s : State) (p : Pos) (c : Cls) :
    (c ≠ s.cl[p].committed → (s.entry p).airbag = true → SuppressionHanded s (s.setClass p c)) ∧
    (¬ (c ≠ s.cl[p].committed ∧ (s.entry p).airbag = true) →
      (s.setClass p c).vp.suppression = s.vp.suppression ∧ (s.setClass p c).ou.suppA = s.ou.suppA) := by
  obtain ⟨-, -, hsupp, -, hvp⟩ := classHanded_does s p c
  refine ⟨fun hnew hflag => ?_, fun hquiet => ?_⟩
  · rw [setClass_new hnew, if_pos hflag]
    have hgiven := giveSuppression_handed (s.classHanded p c)
    have hkept : (s.classHanded p c).vp.suppression = s.vp.suppression := by rw [hvp]
    rw [SuppressionHanded, hkept] at hgiven
    exact hgiven
  · by_cases hnew : c = s.cl[p].committed
    · rw [setClass_same hnew]
      exact ⟨rfl, rfl⟩
    · have hflag : ¬ (s.entry p).airbag = true := fun hflag => hquiet ⟨hnew, hflag⟩
      rw [setClass_new hnew, if_neg hflag]
      exact ⟨by rw [hvp], hsupp⟩

/-- The class of no person at an INACTIVE position: what RU, OU and VP make of it (R95, R117, R118). -/
theorem setClass_inactive {s : State} {p : Pos} {c : Cls} (h : s.ru.records[p].state = .inactive)
    (hc : c = .unknown ∨ c = .notConfigured) :
    (s.setClass p c).ru = (if c ≠ s.cl[p].committed ∧ c = .notConfigured then s.ru.put p .toInactive else s.ru) ∧
    (s.setClass p c).ou = { s.ou with suppA := (s.setClass p c).ou.suppA } ∧
    (s.setClass p c).vp = { s.vp with cls := (s.setClass p c).vp.cls, suppression := (s.setClass p c).vp.suppression } := by
  by_cases hnew : c = s.cl[p].committed
  · rw [setClass_same hnew, if_neg fun hboth => hboth.1 hnew]
    exact ⟨rfl, rfl, rfl⟩
  · have hhanded : s.classHanded p c = State.handClass { s.classed p c with
        ru := if c = .notConfigured then s.ru.put p .toInactive else s.ru } p c := by
      unfold State.classHanded
      rw [reminderClass_inactive (by exact h) hc]
      rfl
    rw [setClass_new hnew, hhanded]
    simp only [ne_eq, hnew, not_false_eq_true, true_and]
    split <;> exact ⟨rfl, rfl, rfl⟩

/-- The suppression that has been given out rests on the classes and their suppression states. -/
theorem SuppressionHanded.of_same {s t u : State} (h : SuppressionHanded s t) (htables : u.tables = t.tables)
    (hou : u.ou.suppA = t.ou.suppA) (hvp : u.vp.suppression = t.vp.suppression)
    (hcl : ∀ q : Pos, u.cl[q].committed = t.cl[q].committed ∧ u.cl[q].supp = t.cl[q].supp) : SuppressionHanded s u := by
  unfold SuppressionHanded at h ⊢
  simp only [htables, hou, hvp, (hcl _).1, (hcl _).2]
  exact h

/-- A change of class hands VP the class where it is a new one (R95). -/
theorem setClass_handed (s : State) (p : Pos) (c : Cls) : Handed s.vp.cls (s.setClass p c).vp.cls
    (if c ≠ s.cl[p].committed then s.vp.cls.content.set p c else s.vp.cls.content) s.statusPeriod 20 := by
  obtain ⟨-, -, -, hcls⟩ := setClass_does s p c
  rw [hcls, ite_not]
  split
  · exact handed_same ..
  · exact handed_hand ..

/-- A position is fitted: its class becomes UNKNOWN (R98). -/
theorem fittingTaken_fit {s : State} {p : Pos} (hfit : s.fitted p = true) : FittingTaken false p s (s.setClass p .unknown) := by
  obtain ⟨hcl, -, hquality, -⟩ := setClass_does s p .unknown
  obtain ⟨hgiven, hkept⟩ := setClass_suppression s p .unknown
  have hrecord : (s.setClass p .unknown).cl[p].committed = .unknown := by rw [hcl, classed_at]
  refine ⟨by simp, ?_, ?_, ?_, ?_, ?_, fun hinactive => ?_⟩
  · rw [hcl, hfit]
    rfl
  · rw [hrecord]
    exact setClass_handed ..
  · rw [hquality]
    exact handed_same ..
  · rw [hrecord]
    exact hgiven
  · rw [hrecord]
    exact hkept
  · obtain ⟨hru, hou, hvp⟩ := setClass_inactive hinactive (.inl rfl)
    refine ⟨by simpa using hru, hou, ?_⟩
    rw [hvp]

/-- A change of the flags hands VP the new ones, and no class or suppression state changes (R95). -/
theorem setQuality_handed (s : State) (p : Pos) (f : Quality → Quality) :
    Handed s.vp.quality (s.setQuality p f).vp.quality (s.vp.quality.content.set p (s.setQuality p f).cl[p].quality) s.statusPeriod 20 ∧
    ∀ q : Pos, (s.setQuality p f).cl[q].committed = s.cl[q].committed ∧ (s.setQuality p f).cl[q].supp = s.cl[q].supp := by
  obtain ⟨hcl, -, -⟩ := setQuality_does s p f
  constructor
  · rw [hcl, upd_at]
    exact handed_hand ..
  · intro q
    rw [hcl, upd_getElem_fin]
    split <;> exact ⟨rfl, rfl⟩

/-- A position is unfitted: its class becomes NOT_CONFIGURED, and its flags follow (R98). -/
theorem fittingTaken_unfit {s : State} {p : Pos} (hfit : s.fitted p = false) :
    FittingTaken true p s ((s.setClass p .notConfigured).setQuality p fun q => { q with linkDown := false, defaultCal := false }) := by
  obtain ⟨hcl, -, hquality, -⟩ := setClass_does s p .notConfigured
  have hhanded := setClass_handed s p .notConfigured
  obtain ⟨hgiven, hkept⟩ := setClass_suppression s p .notConfigured
  have hinactive (h : s.ru.records[p].state = .inactive) := setClass_inactive h (.inr rfl)
  have htables : (s.setClass p .notConfigured).tables = s.tables := by simp
  generalize s.setClass p .notConfigured = u at *
  obtain ⟨hcl', hvp, -⟩ := setQuality_does u p fun q => { q with linkDown := false, defaultCal := false }
  obtain ⟨hflags, hsame⟩ := setQuality_handed u p fun q => { q with linkDown := false, defaultCal := false }
  have hrecord := (hsame p).1
  rw [hcl, classed_at] at hrecord
  refine ⟨by simpa using htables, ?_, ?_, ?_, ?_, ?_, fun hclosed => ?_⟩
  · rw [hcl', hcl, hfit, State.classed, upd_upd]
    rfl
  · rw [hrecord, hvp]
    exact hhanded
  · rw [hquality, State.statusPeriod, htables] at hflags
    rw [hfit]
    exact hflags
  · rw [hrecord]
    exact fun hnew hflag => (hgiven hnew hflag).of_same (by simp) (by simp) (by rw [hvp]) hsame
  · rw [hrecord, hvp]
    exact hkept
  · obtain ⟨hru, hou, hport⟩ := hinactive hclosed
    refine ⟨?_, hou, ?_⟩
    · rw [hrecord, hfit]
      simpa using hru
    · rw [hvp, hport]

/-- A position that stays fitted, or stays unfitted, has no effect. -/
theorem fittingTaken_stay {s : State} {p : Pos} {was : Bool} (h : s.fitted p = was) : FittingTaken was p s s := by
  subst h
  have hrecord : s.cl[p].refitted (s.fitted p) (s.fitted p) = s.cl[p] := by
    cases hfit : s.fitted p <;> rfl
  refine ⟨rfl, ?_, ?_, ?_, fun hnew => absurd rfl hnew, fun _ => ⟨rfl, rfl⟩, fun _ => ⟨?_, rfl, rfl⟩⟩
  · rw [hrecord]
    exact (Vector.set_getElem_self _).symm
  · simpa using handed_same ..
  · simpa using handed_same ..
  · simp

/-- The class record moves with the fitting, and what follows from it (R95, R98). -/
theorem fittingTaken_fittingChange (s : State) (p : Pos) (was : Bool) : FittingTaken was p s (s.fittingChange p was) := by
  unfold State.fittingChange
  cases was <;> cases hfit : s.fitted p
  case false.true => exact fittingTaken_fit hfit
  case true.false => exact fittingTaken_unfit hfit
  case false.false | true.true => exact fittingTaken_stay hfit

end Sys2Proof.Machine
end

section
/-! What a write of several stations makes of CL, RU, OU and VP: one position after the other (R95, R98, R161). -/

namespace Sys2Proof.Machine

/-! ## CL's records -/

theorem FittingTaken.elsewhere {was : Bool} {p q : Pos} {u t : State} (h : FittingTaken was p u t) (hq : q ≠ p) : t.cl[q] = u.cl[q] := by
  rw [h.record, set_getElem_fin, if_neg hq]

theorem FittingTaken.at {was : Bool} {p : Pos} {u t : State} (h : FittingTaken was p u t) :
    t.cl[p] = u.cl[p].refitted was (u.fitted p) := by
  rw [h.record, set_getElem_fin, if_pos rfl]

theorem fitted_congr {s t : State} (h : t.tables = s.tables) (p : Pos) : t.fitted p = s.fitted p := by
  rw [State.fitted, State.entry, h]
  rfl

/-- A record that is refitted as the table was and is says what R98 asks. -/
theorem classFitted_of_refitted {s t : State} {p : Pos} (h : t.cl[p] = s.cl[p].refitted (s.fitted p) (t.fitted p)) :
    ClassFitted s t p := by
  unfold ClassFitted State.fitted at *
  cases hwas : (s.entry p).station <;> cases hfit : (t.entry p).station <;> rw [hwas, hfit] at h <;> exact h

/-- R98 speaks of the table and of CL's record alone. -/
theorem ClassFitted.congr {s u t : State} {p : Pos} (h : ClassFitted s u p) (htables : t.tables = u.tables) (hcl : t.cl[p] = u.cl[p]) :
    ClassFitted s t p := by
  unfold ClassFitted State.entry at *
  rw [htables, hcl]
  exact h

/-! ## What is handed on for one position -/

/-- The class of `p` is another one in `t`. -/
def classChanged (s t : State) (p : Pos) : Bool := decide (t.cl[p].committed ≠ s.cl[p].committed)

/-- The positions of `ps` whose new class has the suppression given out (R95, R96). -/
def reporting (s t : State) (ps : List Pos) : List Pos := ps.filter fun p => classChanged s t p && (s.entry p).airbag

/-- The classes with that of `p`, where it is a new one. -/
def classesWith (s t : State) (p : Pos) (c : Vector Cls 16) : Vector Cls 16 :=
  if classChanged s t p then c.set p t.cl[p].committed else c

/-- The quality flags with those of `p`, where it is unfitted. -/
def qualitiesWith (s t : State) (p : Pos) (c : Vector Quality 16) : Vector Quality 16 :=
  if s.fitted p && !t.fitted p then c.set p t.cl[p].quality else c

/-- A position's state and class after the writes of the positions up to `p` (log entry 28). -/
def suppEntryUpTo (s t : State) (p q : Pos) : SuppEntry :=
  let k := if q ≤ p then t.cl[q] else s.cl[q]
  { pos := q, state := k.supp, cls := k.committed }

/-- The suppression content after the writes of the positions up to `p` (log entry 28). -/
def suppressionUpTo (s t : State) (p : Pos) : SuppContent :=
  { a := t.tables.positionA.map (suppEntryUpTo s t p), b := t.tables.positionB.map (suppEntryUpTo s t p) }

/-- Clause by clause, what `FittingsWritten` says. -/
structure StationsWritten (s t : State) (ps : List Pos) : Prop where
  fitted : ∀ p ∈ ps, ClassFitted s t p
  others : ∀ q : Pos, q ∉ ps → t.cl[q] = s.cl[q]
  cls : HandedInTurn (classesWith s t) s.statusPeriod 20 ps s.vp.cls t.vp.cls
  quality : HandedInTurn (qualitiesWith s t) s.statusPeriod 20 ps s.vp.quality t.vp.quality
  suppression : HandedInTurn (fun p _ => suppressionUpTo s t p) 50 10 (reporting s t ps) s.vp.suppression t.vp.suppression
  suppA : t.ou.suppA = if reporting s t ps = [] then s.ou.suppA else t.tables.positionA.map fun q => t.cl[q].supp
  closed : (∀ p ∈ ps, s.ru.records[p].state = .inactive) →
    t.ru = { s.ru with records := t.ru.records } ∧
    (∀ q : Pos, t.ru.records[q] = if q ∈ ps ∧ classChanged s t q = true ∧ (s.fitted q && !t.fitted q) = true then .toInactive
      else s.ru.records[q]) ∧
    t.ou = { s.ou with suppA := t.ou.suppA } ∧
    t.vp = { s.vp with cls := t.vp.cls, quality := t.vp.quality, suppression := t.vp.suppression }

theorem stationsWritten_iff {s t : State} {ps : List Pos} : StationsWritten s t ps ↔ FittingsWritten s t ps := by
  have hunfitted (q : Pos) : (s.fitted q && !t.fitted q) = ((s.entry q).station.isSome && (t.entry q).station.isNone) := by
    rw [← Option.not_isSome]
    rfl
  unfold FittingsWritten
  simp only [← hunfitted]
  constructor
  · rintro ⟨hfitted, hothers, hcls, hquality, hsupp, hsuppA, hclosed⟩
    exact ⟨hfitted, hothers, hcls, hquality, hsupp, hsuppA, hclosed⟩
  · rintro ⟨hfitted, hothers, hcls, hquality, hsupp, hsuppA, hclosed⟩
    exact ⟨hfitted, hothers, hcls, hquality, hsupp, hsuppA, hclosed⟩

/-! ## One position more -/

section
variable {s u t : State}

theorem classChanged_congr {q : Pos} (h : t.cl[q] = u.cl[q]) : classChanged s t q = classChanged s u q := by
  rw [classChanged, h]
  rfl

theorem classesWith_congr {q : Pos} (h : t.cl[q] = u.cl[q]) : classesWith s t q = classesWith s u q := by
  unfold classesWith
  rw [classChanged_congr h, h]

theorem qualitiesWith_congr {q : Pos} (htables : t.tables = u.tables) (h : t.cl[q] = u.cl[q]) :
    qualitiesWith s t q = qualitiesWith s u q := by
  unfold qualitiesWith
  rw [fitted_congr htables, h]

theorem suppressionUpTo_congr {q : Pos} (htables : t.tables = u.tables) (h : ∀ r ≤ q, t.cl[r] = u.cl[r]) :
    suppressionUpTo s t q = suppressionUpTo s u q := by
  have hentry : suppEntryUpTo s t q = suppEntryUpTo s u q := by
    funext r
    unfold suppEntryUpTo
    split
    next hr => rw [h r hr]
    next => rfl
  unfold suppressionUpTo
  rw [htables, hentry]

/-- Where the positions above `q` are untouched, the suppression after `q` is the one of all the records. -/
theorem suppressionUpTo_of_untouched {q : Pos} (h : ∀ r, q < r → t.cl[r] = s.cl[r]) : suppressionUpTo s t q =
    { a := t.tables.positionA.map fun r => { pos := r, state := t.cl[r].supp, cls := t.cl[r].committed }
      b := t.tables.positionB.map fun r => { pos := r, state := t.cl[r].supp, cls := t.cl[r].committed } } := by
  have hentry : suppEntryUpTo s t q = fun r => { pos := r, state := t.cl[r].supp, cls := t.cl[r].committed } := by
    funext r
    unfold suppEntryUpTo
    split
    next => rfl
    next hr => rw [h r (not_le.mp hr)]
  rw [suppressionUpTo, hentry]

/-- One more position written: whether it reports is up to its own class and flag. -/
theorem reporting_concat {done : List Pos} {p : Pos} (hsame : ∀ q ∈ done, t.cl[q] = u.cl[q]) :
    reporting s t (done ++ [p]) = reporting s u done ++ if classChanged s t p && (s.entry p).airbag then [p] else [] := by
  have hdone : reporting s t done = reporting s u done := List.filter_congr fun q hq => by rw [classChanged_congr (hsame q hq)]
  rw [← hdone, reporting, List.filter_append, List.filter_singleton, Bool.cond_eq_ite]
  rfl

end

/-- Position A lies at or below every flagged position (R96). -/
theorem positionA_le {t : Tables} {q r : Pos} (hq : t.positionA = some q) (hr : t.positions[r].airbag = true) : q ≤ r := by
  obtain ⟨-, hbelow⟩ := (airbagPositions_getElem?_iff t 0 q).mp hq
  by_contra hlt
  have hnone := Finset.filter_eq_empty_iff.mp (Finset.card_eq_zero.mp hbelow) (Finset.mem_univ r)
  exact hnone ⟨not_le.mp hlt, hr⟩

/-- R161: the write of `p` follows those of the positions `done` below it. -/
theorem StationsWritten.concat {s u t : State} {done : List Pos} {p : Pos} (hu : StationsWritten s u done) (hbelow : ∀ q ∈ done, q < p)
    (h : FittingTaken (s.fitted p) p u t) (hflags : ∀ q, (u.entry q).airbag = (s.entry q).airbag)
    (hperiod : u.statusPeriod = s.statusPeriod) : StationsWritten s t (done ++ [p]) := by
  have hnew : p ∉ done := fun hp => lt_irrefl p (hbelow p hp)
  have hsame (q) (hq : q ∈ done) : t.cl[q] = u.cl[q] := h.elsewhere (hbelow q hq).ne
  have hfrom : u.cl[p] = s.cl[p] := hu.others p hnew
  have huntouched (q) (hq : q ∉ done ++ [p]) : t.cl[q] = s.cl[q] := by
    rw [List.mem_append, List.mem_singleton, not_or] at hq
    rw [h.elsewhere hq.2, hu.others q hq.1]
  have habove (q) (hq : p < q) : t.cl[q] = s.cl[q] := huntouched q fun hmem => by
    rcases List.mem_append.mp hmem with hq' | hq'
    · exact lt_asymm hq (hbelow q hq')
    · exact hq.ne' (List.mem_singleton.mp hq')
  have hreports : classChanged s t p && (s.entry p).airbag ↔ t.cl[p].committed ≠ u.cl[p].committed ∧ (u.entry p).airbag = true := by
    simp [classChanged, hfrom, hflags]
  have hunfitted : (s.fitted p && !u.fitted p) = (s.fitted p && !t.fitted p) := by rw [fitted_congr h.tables]
  refine ⟨?_, huntouched, ?_, ?_, ?_, ?_, ?_⟩
  · intro q hq
    rcases List.mem_append.mp hq with hq | hq
    · exact (hu.fitted q hq).congr h.tables (hsame q hq)
    · obtain rfl := List.mem_singleton.mp hq
      exact classFitted_of_refitted (by rw [h.at, hfrom, fitted_congr h.tables])
  · refine (hu.cls.congr fun q hq c => by rw [classesWith_congr (hsame q hq)]).concat ?_
    have hp := h.cls
    rw [hperiod, hfrom] at hp
    simpa only [classesWith, classChanged, decide_eq_true_eq] using hp
  · refine (hu.quality.congr fun q hq c => by rw [qualitiesWith_congr h.tables (hsame q hq)]).concat ?_
    have hp := h.quality
    rw [hperiod, hunfitted] at hp
    exact hp
  · rw [reporting_concat hsame]
    have hdone := hu.suppression.congr (other := fun q _ => suppressionUpTo s t q) fun q hq c =>
      (suppressionUpTo_congr h.tables fun r hr => h.elsewhere (hr.trans_lt (hbelow q (List.mem_of_mem_filter hq))).ne).symm
    split
    next hreport =>
      obtain ⟨hcls, hflag⟩ := hreports.mp hreport
      obtain ⟨-, hgiven⟩ := h.given hcls hflag
      exact hdone.concat (suppressionUpTo_of_untouched habove ▸ hgiven)
    next hquiet =>
      rw [List.append_nil, (h.kept fun hboth => hquiet (hreports.mpr hboth)).1]
      exact hdone
  · rw [reporting_concat hsame]
    split
    next hreport =>
      obtain ⟨hcls, hflag⟩ := hreports.mp hreport
      rw [if_neg (by simp)]
      exact (h.given hcls hflag).1
    next hquiet =>
      rw [List.append_nil, (h.kept fun hboth => hquiet (hreports.mpr hboth)).2, hu.suppA, h.tables]
      split
      next => rfl
      next hsome =>
        obtain ⟨r, hr⟩ := List.exists_mem_of_ne_nil _ hsome
        obtain ⟨hmem, hr⟩ := List.mem_filter.mp hr
        refine Option.map_congr fun q hq => ?_
        have hle : q ≤ r := positionA_le hq (by simpa [State.entry] using (hflags r).trans (Bool.and_eq_true_iff.mp hr).2)
        rw [h.elsewhere (hle.trans_lt (hbelow r hmem)).ne]
  · intro hinactive
    obtain ⟨hru, hrecords, hou, hvp⟩ := hu.closed fun q hq => hinactive q (List.mem_append_left _ hq)
    have hp : u.ru.records[p].state = .inactive := by
      rw [hrecords p, if_neg fun hmem => hnew hmem.1]
      exact hinactive p (by simp)
    obtain ⟨hru', hou', hvp'⟩ := h.closed hp
    refine ⟨?_, fun q => ?_, by rw [hou', hou], by rw [hvp', hvp]⟩
    · rw [hru', hru]
      split <;> rfl
    · rw [hunfitted] at hru'
      by_cases hq : q = p
      · subst hq
        have hmem : q ∈ done ++ [q] := by simp
        have hheld : u.ru.records[q] = s.ru.records[q] := by rw [hrecords q, if_neg fun hmem => hnew hmem.1]
        simp only [hmem, true_and, classChanged, decide_eq_true_eq, ← hfrom]
        rw [hru']
        split
        next => exact ReminderUnit.put_record ..
        next => exact hheld
      · have hstands : t.ru.records[q] = u.ru.records[q] := by
          rw [hru']
          split
          next => exact (set_getElem_fin ..).trans (if_neg hq)
          next => rfl
        rw [hstands, hrecords q]
        refine if_congr ?_ rfl rfl
        rw [List.mem_append, List.mem_singleton, or_iff_left hq, fitted_congr h.tables]
        exact and_congr_right fun hmem => by rw [classChanged_congr (hsame q hmem)]

/-- Where the stations stand in the table of `u` already, the positions take their turns in ascending order (log entry 28). -/
theorem stationsWritten_forEach {s u : State} (hcl : u.cl = s.cl) (hru : u.ru = s.ru) (hou : u.ou = s.ou) (hvp : u.vp = s.vp)
    (hflags : ∀ q, (u.entry q).airbag = (s.entry q).airbag) (hperiod : u.statusPeriod = s.statusPeriod) {ps : List Pos}
    (hsorted : ps.Pairwise (· < ·)) : StationsWritten s (forEach ps (fun p t => t.fittingChange p (s.fitted p)) u) ps := by
  induction ps using List.reverseRecOn with
  | nil =>
    rw [forEach, List.foldl_nil]
    refine ⟨by simp, fun q _ => by rw [hcl], congrArg VehiclePort.cls hvp, congrArg VehiclePort.quality hvp,
      congrArg VehiclePort.suppression hvp, congrArg OutputUnit.suppA hou, fun _ => ?_⟩
    simp [hru, hou, hvp]
  | append_singleton done p ih =>
    obtain ⟨hdone, -, hbelow⟩ := List.pairwise_append.mp hsorted
    have htables := forEach_keeps State.tables done (fun p t => t.fittingChange p (s.fitted p)) u (by simp)
    rw [forEach, List.foldl_append]
    refine (ih hdone).concat (fun q hq => hbelow q hq p (by simp)) (fittingTaken_fittingChange ..) (fun q => ?_) ?_
    · rw [State.entry, htables]
      exact hflags q
    · rw [State.statusPeriod, htables]
      exact hperiod

end Sys2Proof.Machine
end

section
/-! An accepted WRITE_WORD (R153 to R160). -/

namespace Sys2Proof.Machine

/-! ## The effects of a stored word -/

theorem fittingChange_overrides (s : State) (p : Pos) (was : Bool) : (s.fittingChange p was).ou.overrides = s.ou.overrides := by
  have hclass (c : Cls) : (s.setClass p c).ou.overrides = s.ou.overrides := (setClass_does s p c).2.1
  unfold State.fittingChange
  split
  next => exact hclass .notConfigured
  next =>
    split
    next => exact hclass .unknown
    next => rfl

/-- The effects of a write touch no word that a table or the Node Map shows. -/
theorem readAt_writeEffects (s t : State) (a : Address) {b : Address} (hb : ∀ p w, b ≠ .context p w) :
    (t.writeEffects s a).readAt b = t.readAt b := by
  obtain ⟨-, -, -, -, -, -, hsm, -, -, -, htables, -⟩ := writeEffects_frame t s a
  refine readAt_congr htables ?_ hsm hb
  unfold State.writeEffects
  split
  · exact fittingChange_overrides ..
  · rfl
  · rfl

/-- A word other than a station and a flag is stored without effects on CL, RU and VP, and none on OU but an override's (R160). -/
theorem writeWord_plain (s : State) {a : Address} (v : Word) (h : ∀ p : Pos, a ≠ .position p 0 ∧ a ≠ .position p 3) :
    (s.writeWord a v).cl = s.cl ∧ (s.writeWord a v).ru = s.ru ∧ (s.writeWord a v).vp = s.vp ∧
    (s.writeWord a v).ou = { s.ou with overrides := (s.writeWord a v).ou.overrides } := by
  have hplain : s.writeWord a v = s.storeWord a v := by
    unfold State.writeWord State.writeEffects
    split
    next p => exact absurd rfl (h p).1
    next p => exact absurd rfl (h p).2
    next => rfl
  rw [hplain]
  unfold State.storeWord
  split <;> exact ⟨rfl, rfl, rfl, rfl⟩

theorem writeWord_overrides (s : State) {a : Address} (v : Word) (h : ∀ i w, a ≠ .override i w) :
    (s.writeWord a v).ou.overrides = s.ou.overrides := by
  have hstored : (s.storeWord a v).ou.overrides = s.ou.overrides := by
    unfold State.storeWord
    split
    next i w => exact absurd rfl (h i w)
    next => rfl
  unfold State.writeWord State.writeEffects
  split
  · rw [fittingChange_overrides, hstored]
  · exact hstored
  · exact hstored

/-- A station written has the effects of its position alone (R95, R98). -/
theorem writeWord_station (s : State) (p : Pos) (v : Word) : FittingsWritten s (s.writeWord (.position p 0) v) [p] :=
  stationsWritten_iff.mp <| stationsWritten_forEach (s := s) (u := s.storeWord (.position p 0) v) (ps := [p]) rfl rfl rfl rfl
    (airbag_storeWord s v (by simp)) rfl (List.pairwise_singleton ..)

/-- A flag written gives the suppression out (R96, R97). -/
theorem writeWord_flag (s : State) (p : Pos) (v : Word) : FlagsWritten s (s.writeWord (.position p 3) v) :=
  flagsWritten_giveSuppression (u := s.storeWord (.position p 3) v) rfl rfl rfl rfl

/-! ## The request -/

/-- A WRITE_WORD frame under the row that its bytes name is served (R150, R151). -/
theorem exec_write {s : State} {rec : RequestRecord} {c : Instr} (hserves : s.serves) (hkind : rec.ofKind 2)
    (hc : c ∈ [Instr.writeWord, .writePositionStation, .writeAirbagRelevant, .writeOverrideEnable, .writeOverrideLatched].map
      (requestFrame s.vp.base rec).under) (hwf : c.wf = true) :
    exec c s = .next (s.thenInputs (requestFrame s.vp.base rec) ((s.serveWrite rec).1.serving rec (s.serveWrite rec).2)) := by
  have hserve : s.serve rec = s.serveWrite rec := by simp only [State.serve, hkind.2.1]
  rw [← hserve]
  simp only [List.map_cons, List.map_nil, List.mem_cons, List.not_mem_nil, or_false] at hc
  rcases hc with rfl | rfl | rfl | rfl | rfl <;> exact onRequest_served hserves hkind (by decide) hwf

/-- A write that passes every check is made, and answered with the word as it then reads (R153, R160). -/
theorem serveWrite_accepted {s : State} {rec : RequestRecord} {a : Address} (ha : address rec.id rec.entry rec.word = some a)
    (htable : a.isView = false) (htouch : mayTouch rec.level a = true) (hmode : a.writableIn s.mode = true)
    (hrange : inRange a.layout rec.value = true) (hconflict : s.tables.conflict a rec.value = none) :
    s.serveWrite rec = (s.writeWord a rec.value, okay ((s.writeWord a rec.value).readAt a)) := by
  simp [State.serveWrite, ha, htable, htouch, hmode, hrange, hconflict]

/-- A part that has the same blocks but those that a write reaches. -/
theorem State.eq_written {s t : State}
    (h : t.power = s.power ∧ t.mode = s.mode ∧ t.change = s.change ∧ t.tb = s.tb ∧ t.ps = s.ps ∧ t.lc = s.lc ∧ t.sm = s.sm ∧
      t.ss = s.ss ∧ t.we = s.we ∧ t.mu = s.mu ∧ t.pending = s.pending) :
    t = { s with tables := t.tables, cl := t.cl, ru := t.ru, ou := t.ou, vp := t.vp } := by
  obtain ⟨hpower, hmode, hchange, htb, hps, hlc, hsm, hss, hwe, hmu, hpending⟩ := h
  cases t
  subst hpower hmode hchange htb hps hlc hsm hss hwe hmu hpending
  rfl

/-- Settles O42: the write is carried out at acceptance; what it does is read off the stored word and its effects. -/
theorem acceptedWriteReadsBackAndTouchesNoOtherWord : Obligations.AcceptedWriteReadsBackAndTouchesNoOtherWord := by
  intro s rec a c hserves hkind f hc hwf ha htable htouch hmode hrange hconflict
  have hcontext (p w) : a ≠ .context p w := by
    rintro rfl
    cases htable
  have hreads : (s.writeWord a rec.value).readAt a = rec.value :=
    (readAt_writeEffects _ _ _ hcontext).trans (readAt_storeWord_same s htable hrange)
  have hserved := serveWrite_accepted ha htable htouch hmode hrange hconflict
  rw [hreads] at hserved
  have hframe := State.eq_written (writeWord_frame s a rec.value)
  refine ⟨(s.writeWord a rec.value).serving rec (okay rec.value), ?_, hreads, fun b hne hb => ?_, ?_, ?_, ?_, ?_, ?_, ?_⟩
  · rw [exec_write hserves hkind hc hwf, hserved]
  · exact (readAt_writeEffects _ _ _ hb).trans (readAt_storeWord_other s _ hne hb)
  · simp [State.serving, okay]
  · rw [State.serving, hframe]
  · rintro p rfl
    exact writeWord_station s p rec.value
  · rintro p rfl
    exact writeWord_flag s p rec.value
  · exact writeWord_plain s rec.value
  · exact writeWord_overrides s rec.value

end Sys2Proof.Machine
end

section
/-! WRITE_MASKED: all masked positions or none (R161). -/

namespace Sys2Proof.Machine

/-! ## The masked positions -/

theorem mem_maskedPositions {mask : Word} {p : Pos} : p ∈ maskedPositions mask ↔ mask.getLsbD p.val = true := by
  simp [maskedPositions, mem_allPos]

theorem maskedPositions_sorted (mask : Word) : (maskedPositions mask).Pairwise (· < ·) := List.Pairwise.filter _ (by decide)

theorem maskedPositions_eq_nil_iff {mask : Word} : maskedPositions mask = [] ↔ mask = 0 := by
  rw [List.eq_nil_iff_forall_not_mem]
  simp only [mem_maskedPositions, Bool.not_eq_true]
  constructor
  · intro h
    ext i hi
    simpa [BitVec.getLsbD_eq_getElem hi] using h ⟨i, hi⟩
  · rintro rfl p
    simp

theorem maskedPositions_length (mask : Word) :
    (maskedPositions mask).length = (Finset.univ.filter fun p : Pos => mask.getLsbD p.val = true).card := by
  have hdecide : maskedPositions mask = allPos.filter fun p => decide (mask.getLsbD p.val = true) := by simp [maskedPositions]
  rw [hdecide]
  rfl

/-- The lowest masked position comes first. -/
theorem maskedPositions_headD {mask : Word} {p : Pos} (hp : mask.getLsbD p.val = true) (hlowest : ∀ q < p, mask.getLsbD q.val = false) :
    (maskedPositions mask).headD 0 = p := by
  have hmem := mem_maskedPositions.mpr hp
  have hsorted := maskedPositions_sorted mask
  cases hps : maskedPositions mask with
  | nil =>
    rw [hps] at hmem
    cases hmem
  | cons q rest =>
    rw [hps] at hmem hsorted
    have hq : mask.getLsbD q.val = true := mem_maskedPositions.mp (hps ▸ List.mem_cons_self)
    rcases List.mem_cons.mp hmem with heq | hrest
    · exact heq.symm
    · have hlt : q < p := List.rel_of_pairwise_cons hsorted hrest
      rw [hlowest q hlt] at hq
      cases hq

/-- R161: the first masked position that conflicts, each against the table with the lower writes made. -/
theorem maskedConflict_eq_some_iff (t : Tables) (w : Fin 4) (v : Word) (ps : List Pos) (p : Pos) (e : Fin 16) :
    t.maskedConflict w v ps = some (p, e) ↔ ∃ k : Nat, ps[k]? = some p ∧
      ((ps.take k).foldl (fun t q => t.store (.position q w) v) t).conflict (.position p w) v = some e ∧
      ∀ j q, j < k → ps[j]? = some q →
        ((ps.take j).foldl (fun t q => t.store (.position q w) v) t).conflict (.position q w) v = none := by
  induction ps generalizing t with
  | nil => simp [Tables.maskedConflict]
  | cons q rest ih =>
    rw [Tables.maskedConflict]
    cases hq : t.conflict (.position q w) v with
    | some d =>
      constructor
      · rintro ⟨⟩
        exact ⟨0, rfl, hq, nofun⟩
      · rintro ⟨k, hp, he, hlower⟩
        cases k with
        | zero =>
          obtain rfl : q = p := by simpa using hp
          have hde : some d = some e := hq.symm.trans he
          rw [Option.some.injEq] at hde
          rw [hde]
        | succ k =>
          have hfirst := hlower 0 q (Nat.succ_pos k) rfl
          rw [List.take_zero, List.foldl_nil, hq] at hfirst
          cases hfirst
    | none =>
      dsimp only
      rw [ih]
      constructor
      · rintro ⟨k, hp, he, hlower⟩
        refine ⟨k + 1, hp, he, fun j r hj hr => ?_⟩
        cases j with
        | zero =>
          obtain rfl : q = r := by simpa using hr
          exact hq
        | succ j => exact hlower j r (Nat.lt_of_succ_lt_succ hj) hr
      · rintro ⟨k, hp, he, hlower⟩
        cases k with
        | zero =>
          obtain rfl : q = p := by simpa using hp
          have hnone : none = some e := hq.symm.trans he
          cases hnone
        | succ k => exact ⟨k, hp, he, fun j r hj hr => hlower (j + 1) r (Nat.succ_lt_succ hj) hr⟩

/-! ## The words stored together -/

/-- The value stored in word `w` of every position of `ps`, with no effect yet (R161). -/
def State.storeAll (s : State) (ps : List Pos) (w : Fin 4) (v : Word) : State :=
  forEach ps (fun p t => t.storeWord (.position p w) v) s

theorem writeAll_eq (s : State) (ps : List Pos) (w : Fin 4) (v : Word) :
    s.writeAll ps w v = forEach ps (fun p t => t.writeEffects s (.position p w)) (s.storeAll ps w v) := rfl

section
variable (s : State) (ps : List Pos) (w : Fin 4) (v : Word)

/-- Stored words touch the Position Table alone. -/
theorem storeAll_eq : s.storeAll ps w v =
    { s with tables := { s.tables with positions := (s.storeAll ps w v).tables.positions } } := by
  refine forEach_induction (fun t => t = { s with tables := { s.tables with positions := t.tables.positions } }) ps _ s rfl ?_
  intro p t ht
  change _ = ({ s with tables := { s.tables with positions := (upd t.tables.positions p fun e => e.store w v) } } : State)
  rw [ht]
  rfl

theorem readAt_storeAll_other {b : Address} (hb : ∀ p ∈ ps, b ≠ .position p w) (hcontext : ∀ p u, b ≠ .context p u) :
    (s.storeAll ps w v).readAt b = s.readAt b := by
  unfold State.storeAll forEach
  induction ps generalizing s with
  | nil => rfl
  | cons q rest ih =>
    rw [List.foldl_cons, ih _ fun p hp => hb p (List.mem_cons_of_mem q hp),
      readAt_storeWord_other s v (hb q List.mem_cons_self) hcontext]

theorem readAt_storeAll_same (hrange : inRange (positionLayout w) v = true) {p : Pos} (hp : p ∈ ps) :
    (s.storeAll ps w v).readAt (.position p w) = v := by
  induction ps generalizing s with
  | nil => cases hp
  | cons q rest ih =>
    by_cases hrest : p ∈ rest
    · exact ih (s.storeWord (.position q w) v) hrest
    · obtain rfl : p = q := (List.mem_cons.mp hp).resolve_right hrest
      have hlater := readAt_storeAll_other (s.storeWord (.position p w) v) rest w v (b := .position p w)
        (fun r hr heq => hrest (by cases heq; exact hr)) (by simp)
      exact hlater.trans (readAt_storeWord_same s rfl hrange)

theorem airbag_storeAll (hw : w ≠ 3) (q : Pos) : ((s.storeAll ps w v).entry q).airbag = (s.entry q).airbag := by
  refine forEach_induction (fun t => (t.entry q).airbag = (s.entry q).airbag) ps _ s rfl fun p t ht => ?_
  exact (airbag_storeWord t v (fun r heq => hw (by cases heq; rfl)) q).trans ht

end

theorem PositionEntry.store_station (e : PositionEntry) {w : Fin 4} (v : Word) (h : w ≠ 0) : (e.store w v).station = e.station := by
  unfold PositionEntry.store
  split
  case h_1 => exact absurd rfl h
  all_goals rfl

/-- Where word 0 is not written, a position stays fitted, or unfitted. -/
theorem fitted_storeAll (s : State) {ps : List Pos} {w : Fin 4} (v : Word) {q : Pos} (h : w ≠ 0 ∨ q ∉ ps) :
    (s.storeAll ps w v).fitted q = s.fitted q := by
  have hstation : ((s.storeAll ps w v).entry q).station = (s.entry q).station := by
    unfold State.storeAll forEach
    induction ps generalizing s with
    | nil => rfl
    | cons p rest ih =>
      rw [List.foldl_cons, ih _ (h.imp_right fun hq hrest => hq (List.mem_cons_of_mem p hrest))]
      change (upd s.tables.positions p fun e => e.store w v)[q].station = s.tables.positions[q].station
      rw [upd_getElem_fin]
      split
      next hp =>
        exact PositionEntry.store_station _ v (h.resolve_right fun hq => hq (hp ▸ List.mem_cons_self))
      next => rfl
  rw [State.fitted, hstation]
  rfl

end Sys2Proof.Machine
end

section
/-! An accepted WRITE_MASKED: the effects of its writes, and its answer (R95 to R98, R161). -/

namespace Sys2Proof.Machine

/-! ## The effects -/

/-- Giving the suppression out again changes nothing. -/
theorem forEach_giveSuppression (ps : List Pos) (t : State) (h : ps ≠ []) :
    forEach ps (fun _ t => t.giveSuppression) t = t.giveSuppression := by
  cases ps with
  | nil => exact absurd rfl h
  | cons p rest =>
    exact forEach_induction (fun u => u = t.giveSuppression) rest _ t.giveSuppression rfl fun q u hu => by
      rw [hu, giveSuppression_of_reported (reported_giveSuppression t)]

section
variable (s : State) (ps : List Pos) (v : Word)

/-- Stations written have the effects of their positions in turn (R95, R98). -/
theorem writeAll_stations (hsorted : ps.Pairwise (· < ·)) : FittingsWritten s (s.writeAll ps 0 v) ps := by
  have hstored := storeAll_eq s ps 0 v
  refine stationsWritten_iff.mp (stationsWritten_forEach (u := s.storeAll ps 0 v) ?_ ?_ ?_ ?_
    (airbag_storeAll s ps 0 v (by decide)) ?_ hsorted)
  all_goals rw [hstored]
  rfl

/-- Flags written give the suppression out (R96, R97). -/
theorem writeAll_flags (h : ps ≠ []) : FlagsWritten s (s.writeAll ps 3 v) := by
  have hstored := storeAll_eq s ps 3 v
  have hgiven : s.writeAll ps 3 v = (s.storeAll ps 3 v).giveSuppression := forEach_giveSuppression ps _ h
  rw [hgiven]
  refine flagsWritten_giveSuppression ?_ ?_ ?_ ?_
  all_goals rw [hstored]

/-- Lamp groups and dwell offsets written have no effect of their own. -/
theorem writeAll_plain {w : Fin 4} (hw : w = 1 ∨ w = 2) : (s.writeAll ps w v).cl = s.cl ∧ (s.writeAll ps w v).ru = s.ru ∧
    (s.writeAll ps w v).ou = s.ou ∧ (s.writeAll ps w v).vp = s.vp := by
  have hplain : s.writeAll ps w v = s.storeAll ps w v := by
    refine forEach_induction (fun u => u = s.storeAll ps w v) ps _ _ rfl fun p u hu => ?_
    rcases hw with rfl | rfl <;> exact hu
  rw [hplain, storeAll_eq s ps w v]
  exact ⟨rfl, rfl, rfl, rfl⟩

end

section
variable (s : State) (ps : List Pos) (w : Fin 4) (v : Word)

theorem writeAll_tables : (s.writeAll ps w v).tables = (s.storeAll ps w v).tables := by
  rw [writeAll_eq]
  exact forEach_keeps State.tables ps _ _ (by simp)

/-- The Position Table is the only one that is written. -/
theorem writeAll_otherTables :
    (s.writeAll ps w v).tables = { s.tables with positions := (s.writeAll ps w v).tables.positions } := by
  rw [writeAll_tables]
  exact congrArg State.tables (storeAll_eq s ps w v)

theorem readAt_writeAll {b : Address} (hb : ∀ p u, b ≠ .context p u) :
    (s.writeAll ps w v).readAt b = (s.storeAll ps w v).readAt b := by
  rw [writeAll_eq]
  exact forEach_keeps (State.readAt · b) ps _ _ fun p t => readAt_writeEffects s t _ hb

/-- CL's record of every position follows its fitting (R98). -/
theorem writeAll_fitted (hps : ps ≠ []) (hsorted : ps.Pairwise (· < ·)) (p : Pos) : ClassFitted s (s.writeAll ps w v) p := by
  have hstays (w : Fin 4) (hp : w ≠ 0 ∨ p ∉ ps) (hcl : (s.writeAll ps w v).cl[p] = s.cl[p]) :
      ClassFitted s (s.writeAll ps w v) p := by
    refine classFitted_of_refitted ?_
    rw [hcl, fitted_congr (writeAll_tables s ps w v), fitted_storeAll s v hp]
    cases s.fitted p <;> rfl
  match w with
  | 0 =>
    obtain ⟨hfitted, hothers, -⟩ := writeAll_stations s ps v hsorted
    by_cases hp : p ∈ ps
    · exact hfitted p hp
    · exact hstays 0 (.inr hp) (hothers p hp)
  | 1 => exact hstays 1 (.inl (by decide)) (congrArg (·[p]) (writeAll_plain s ps v (.inl rfl)).1)
  | 2 => exact hstays 2 (.inl (by decide)) (congrArg (·[p]) (writeAll_plain s ps v (.inr rfl)).1)
  | 3 => exact hstays 3 (.inl (by decide)) (congrArg (·[p]) (writeAll_flags s ps v hps).1)

end

/-! ## The request -/

/-- A WRITE_MASKED frame is served (R150, R151). -/
theorem exec_writeMasked {s : State} {rec : RequestRecord} (hserves : s.serves) (hkind : rec.ofKind 3) :
    exec ((requestFrame s.vp.base rec).under .writeMasked) s = .next (s.thenInputs (requestFrame s.vp.base rec)
      ((s.serveMasked rec).1.serving rec (s.serveMasked rec).2)) := by
  have hserve : s.serve rec = s.serveMasked rec := by simp only [State.serve, hkind.2.1]
  rw [← hserve]
  exact onRequest_served hserves hkind (by decide) (isKind_requestFrame _ hkind)

section
variable {s : State} {rec : RequestRecord}

theorem serveMasked_otherTable (hid : rec.id ≠ 1) : s.serveMasked rec = (s, refusal .malformed) := by
  unfold State.serveMasked
  exact if_pos hid

theorem serveMasked_noWord (hid : rec.id = 1) (hword : 4 ≤ rec.word.toNat) : s.serveMasked rec = (s, refusal .notPresent) := by
  simp [State.serveMasked, hid, index, Nat.not_lt.mpr hword]

variable {w : Fin 4} (hid : rec.id = 1) (hword : rec.word.toNat = w.val)
include hid hword

theorem serveMasked_hidden (hw : w = 3) (hlevel : rec.level = .operational) : s.serveMasked rec = (s, refusal .notPresent) := by
  simp [State.serveMasked, hid, hword, index, hw, hlevel]

variable (htouch : w = 3 → rec.level = .service)
include htouch

theorem serveMasked_mode (hmode : s.mode ≠ .config) : s.serveMasked rec = (s, refusal .mode) := by
  have hlevel : ¬ (w = 3 ∧ rec.level = .operational) := fun ⟨hw, h⟩ => by simp [htouch hw] at h
  simp [State.serveMasked, hid, hword, index, hlevel, hmode]

variable (hmode : s.mode = .config)
include hmode

theorem serveMasked_noPosition (hmask : rec.mask = 0) : s.serveMasked rec = (s, refusal .range) := by
  have hlevel : ¬ (w = 3 ∧ rec.level = .operational) := fun ⟨hw, h⟩ => by simp [htouch hw] at h
  simp [State.serveMasked, hid, hword, index, hlevel, hmode, maskedPositions_eq_nil_iff.mpr hmask]

variable (hps : maskedPositions rec.mask ≠ [])
include hps

theorem serveMasked_range (hrange : inRange (positionLayout w) rec.value = false) :
    s.serveMasked rec = (s, refusal .range (byteOf ((maskedPositions rec.mask).headD 0).val)) := by
  have hlevel : ¬ (w = 3 ∧ rec.level = .operational) := fun ⟨hw, h⟩ => by simp [htouch hw] at h
  simp [State.serveMasked, hid, hword, index, hlevel, hmode, hps, hrange]

theorem serveMasked_conflict (hrange : inRange (positionLayout w) rec.value = true) {p : Pos} {e : Fin 16}
    (hconflict : s.tables.maskedConflict w rec.value (maskedPositions rec.mask) = some (p, e)) :
    s.serveMasked rec = (s, refusal .conflict (byteOf p.val) (byteOf e.val)) := by
  have hlevel : ¬ (w = 3 ∧ rec.level = .operational) := fun ⟨hw, h⟩ => by simp [htouch hw] at h
  simp [State.serveMasked, hid, hword, index, hlevel, hmode, hps, hrange, hconflict]

theorem serveMasked_accepted (hrange : inRange (positionLayout w) rec.value = true)
    (hconflict : s.tables.maskedConflict w rec.value (maskedPositions rec.mask) = none) :
    s.serveMasked rec =
      (s.writeAll (maskedPositions rec.mask) w rec.value, okay rec.value (byteOf (maskedPositions rec.mask).length)) := by
  have hlevel : ¬ (w = 3 ∧ rec.level = .operational) := fun ⟨hw, h⟩ => by simp [htouch hw] at h
  simp [State.serveMasked, hid, hword, index, hlevel, hmode, hps, hrange, hconflict]

end

/-- Settles O44: the checks in their order, then the words stored together and their effects in turn. -/
theorem maskedWriteIsAllOrNone : Obligations.MaskedWriteIsAllOrNone := by
  intro s rec hserves hkind f answered
  have hrefused (r : Result) (h : s.serveMasked rec = (s, .result r)) : answered r := by
    change exec _ s = _
    rw [exec_writeMasked hserves hkind, h]
  refine ⟨fun hid => hrefused _ (serveMasked_otherTable hid), fun hid hword => hrefused _ (serveMasked_noWord hid hword),
    fun w hid hword => ⟨fun hw hlevel => hrefused _ (serveMasked_hidden hid hword hw hlevel), fun htouch => ?_⟩⟩
  refine ⟨fun hmode => hrefused _ (serveMasked_mode hid hword htouch hmode),
    fun hmode hmask => hrefused _ (serveMasked_noPosition hid hword htouch hmode hmask), fun hmode hrange p hp hlowest => ?_,
    fun hmode hmask hrange => ?_⟩
  · have hps : maskedPositions rec.mask ≠ [] := List.ne_nil_of_mem (mem_maskedPositions.mpr hp)
    have hserved := serveMasked_range hid hword htouch hmode hps hrange
    rw [maskedPositions_headD hp hlowest] at hserved
    exact hrefused _ hserved
  · have hps : maskedPositions rec.mask ≠ [] := mt maskedPositions_eq_nil_iff.mp hmask
    refine ⟨maskedConflict_eq_some_iff _ w rec.value _, fun hnone => ?_,
      fun p e hconflict => hrefused _ (serveMasked_conflict hid hword htouch hmode hps hrange hconflict)⟩
    have hserved := serveMasked_accepted hid hword htouch hmode hps hrange hnone
    have hsorted := maskedPositions_sorted rec.mask
    have hframe := State.eq_written (writeAll_frame s (maskedPositions rec.mask) w rec.value)
    have hmu : (s.writeAll (maskedPositions rec.mask) w rec.value).mu = s.mu := by simp
    refine ⟨(s.writeAll (maskedPositions rec.mask) w rec.value).serving rec (okay rec.value (byteOf (maskedPositions rec.mask).length)),
      by rw [exec_writeMasked hserves hkind, hserved], fun p hp => ?_, fun b hb hcontext => ?_, ?_, ?_, ?_,
      writeAll_fitted s _ w rec.value hps hsorted, ?_, ?_, writeAll_plain s _ rec.value⟩
    · exact (readAt_writeAll s _ w _ (by simp)).trans (readAt_storeAll_same s _ w _ hrange (mem_maskedPositions.mpr hp))
    · exact (readAt_writeAll s _ w _ hcontext).trans
        (readAt_storeAll_other s _ w _ (fun p hp => hb p (mem_maskedPositions.mp hp)) hcontext)
    · exact writeAll_otherTables s _ w rec.value
    · rw [State.serving, hmu, maskedPositions_length]
      rfl
    · rw [State.serving, hframe]
    · rintro rfl
      exact writeAll_stations s _ rec.value hsorted
    · rintro rfl
      exact writeAll_flags s _ rec.value hps

end Sys2Proof.Machine
end

section
/-! Moves of several reminders in turn, and what they leave alone (R111, R112, R116, R117, R122). -/

namespace Sys2Proof.Machine

/-! ## What moves of reminders leave alone -/

/-- From `s` to `t` nothing changes but the reminder records, OU, and VP's belt content (R122). -/
def OnlyReminders (s t : State) : Prop :=
  t = { s with ru := { s.ru with records := t.ru.records }, ou := t.ou, vp := { s.vp with belt := t.vp.belt } }

theorem OnlyReminders.refl (s : State) : OnlyReminders s s := rfl

theorem OnlyReminders.trans {s t u : State} (hst : OnlyReminders s t) (htu : OnlyReminders t u) : OnlyReminders s u := by
  unfold OnlyReminders at *
  rw [htu, hst]

theorem onlyReminders_putRecord (s : State) (p : Pos) (r : ReminderRecord) : OnlyReminders s (s.putRecord p r) := by
  have hmoved := recordsMoved_putRecord s p r
  obtain ⟨-, -, -, hvp, -⟩ := putRecord_does s p r
  unfold RecordsMoved at hmoved
  unfold OnlyReminders
  rwa [← hvp]

/-- Every record stored after such moves is such a move (R122). -/
theorem OnlyReminders.putRecord {s t : State} (h : OnlyReminders s t) (p : Pos) (r : ReminderRecord) :
    OnlyReminders s (t.putRecord p r) :=
  h.trans (onlyReminders_putRecord t p r)

/-- What the moves of reminders read stands: the ignition, the counter, the speed, the Cabin Time and the tables. -/
theorem OnlyReminders.inputs {s t : State} (h : OnlyReminders s t) :
    t.ignitionOn = s.ignitionOn ∧ t.ru.ignitionCount = s.ru.ignitionCount ∧ t.speedReading = s.speedReading ∧
    t.tb = s.tb ∧ t.tables = s.tables := by
  rw [h]
  exact ⟨rfl, rfl, rfl, rfl, rfl⟩

/-! ## Passes over the positions -/

/-- A pass over the positions, in which the visit of `p` puts `g p` of its record in RU in every state that meets `I`. -/
theorem forEach_put {f : Pos → State → State} {g : Pos → ReminderRecord → ReminderRecord} {I : State → Prop} {s : State}
    (hs : I s) (hf : ∀ p t, I t → I (f p t) ∧ (f p t).ru = t.ru.put p (g p t.ru.records[p])) :
    I (forEach allPos f s) ∧ ∀ q : Pos, (forEach allPos f s).ru.records[q] = g q s.ru.records[q] := by
  have hpass (xs : List Pos) : xs.Nodup → ∀ t, I t → I (forEach xs f t) ∧
      ∀ q : Pos, (forEach xs f t).ru.records[q] = if q ∈ xs then g q t.ru.records[q] else t.ru.records[q] := by
    induction xs with
    | nil => exact fun _ t ht => ⟨ht, fun _ => rfl⟩
    | cons p xs ih =>
      intro hnodup t ht
      obtain ⟨hnew, hnodup⟩ := List.nodup_cons.mp hnodup
      obtain ⟨hkept, hru⟩ := hf p t ht
      obtain ⟨hkept', hrecords⟩ := ih hnodup _ hkept
      refine ⟨hkept', fun q => ?_⟩
      change (forEach xs f (f p t)).ru.records[q] = _
      rw [hrecords, hru, ReminderUnit.put, set_getElem_fin]
      by_cases hq : q = p
      · subst hq
        simp [hnew]
      · simp [hq]
  obtain ⟨hkept, hrecords⟩ := hpass allPos (by decide) s hs
  exact ⟨hkept, fun q => by rw [hrecords, if_pos (mem_allPos q)]⟩

/-- Every reminder has moved to INACTIVE, and every field of its record is cleared (R117, R120). -/
theorem allInactive_does (s : State) :
    OnlyReminders s s.allInactive ∧ ∀ p : Pos, s.allInactive.ru.records[p] = .toInactive := by
  unfold State.allInactive
  exact forEach_put (g := fun _ _ => .toInactive) (.refl s) fun _ _ ht => ⟨ht.putRecord _ _, putRecord_ru ..⟩

/-- The ignition goes off: the counter is cleared and every reminder is closed (R108, R117). -/
theorem ignitionGoesOff_does (s : State) :
    OnlyReminders { s with ru := { s.ru with ignitionCount := 0 } } s.ignitionGoesOff ∧
    ∀ p : Pos, s.ignitionGoesOff.ru.records[p] = .toInactive := by
  unfold State.ignitionGoesOff
  generalize ({ s with ru := { s.ru with ignitionCount := 0 } } : State) = t
  exact allInactive_does t

/-! ## Entry into PENDING -/

/-- A record out of PENDING meets no test of R112 and R116. -/
theorem pendingEntered_of_not_pending {s : State} {p : Pos} {r : ReminderRecord} (h : r.state ≠ .pending) :
    s.pendingEntered p r = r := by
  have hawaits : r.awaitsTrigger = false := by simp [ReminderRecord.awaitsTrigger, h]
  simp [State.pendingEntered, State.triggerMet, hawaits, deadlineTaken, ReminderRecord.deadlineReached, h]

/-- A record in PENDING meets the test of its deadline, or without one that of its trigger (R112, R116). -/
theorem pendingTested_pendingEntered (s : State) (p : Pos) {r : ReminderRecord} (h : r.state = .pending) :
    r.PendingTested (s.pendingEntered p r) (s.profileOf p) s.speedReading s.ru.ignitionCount s.tb.time := by
  unfold ReminderRecord.PendingTested State.pendingEntered
  cases hd : r.deadline with
  | some d =>
    have hmet : s.triggerMet p r = r := by simp [State.triggerMet, ReminderRecord.awaitsTrigger, hd]
    rw [hmet]
    unfold deadlineTaken
    refine ⟨fun hreached => if_pos ((deadlineReached_iff h hd).mpr hreached), fun hearly => if_neg fun hreached => ?_⟩
    have := (deadlineReached_iff h hd).mp hreached
    omega
  | none =>
    have hawaits : r.awaitsTrigger = true := awaitsTrigger_iff.mpr ⟨h, hd⟩
    have hnone (u : ReminderRecord) (hu : u.deadline = none) : deadlineTaken (s.profileOf p) s.tb.time u = u := by
      simp [deadlineTaken, ReminderRecord.deadlineReached, hu]
    unfold State.triggerMet
    rw [hawaits, Bool.true_and]
    simp only [← triggerHolds_iff]
    refine ⟨fun hholds => ?_, fun hfails => ?_⟩
    · rw [if_pos hholds]
      exact hnone _ rfl
    · rw [if_neg hfails]
      exact hnone _ hd

/-- The record that an INACTIVE position goes to on becoming applicable (R111). -/
def State.opened (s : State) (p : Pos) : ReminderRecord :=
  if s.latched p then .toBuckled else s.pendingEntered p (.toPending none)

theorem becomeApplicable_ru (s : State) (p : Pos) : (s.becomeApplicable p).ru = s.ru.put p (s.opened p) := by
  unfold State.becomeApplicable State.opened
  dsimp only
  split
  · exact putRecord_ru ..
  · exact enterPending_ru ..

theorem latched_iff {s : State} {p : Pos} : s.latched p = true ↔ s.ru.buckles[p].confirmed = some .latched := by
  simp [State.latched]

theorem opened_becomesApplicable (s : State) (p : Pos) : s.BecomesApplicable p (s.opened p) := by
  unfold State.BecomesApplicable State.opened
  simp only [latched_iff]
  split
  · rfl
  · exact pendingTested_pendingEntered s p rfl

/-- Moves of reminders change nothing that decides whether, and how, another one opens (R109, R111). -/
theorem OnlyReminders.opened {s t : State} (h : OnlyReminders s t) (p : Pos) :
    t.opened p = s.opened p ∧ t.applicable p t.cl[p].committed = s.applicable p s.cl[p].committed := by
  rw [h]
  exact ⟨rfl, rfl⟩

/-- The ignition comes on: each INACTIVE position opens whose reminder is applicable, and the others stand (R108, R111). -/
theorem ignitionComesOn_does (s : State) :
    OnlyReminders { s with ru := { s.ru with ignitionTime := s.tb.time } } s.ignitionComesOn ∧
    ∀ p : Pos, s.ignitionComesOn.ru.records[p] =
      if s.ru.records[p].state = .inactive ∧ s.applicable p s.cl[p].committed = true then s.opened p else s.ru.records[p] := by
  unfold State.ignitionComesOn
  dsimp only
  refine forEach_put (g := fun p r => if r.state = .inactive ∧ s.applicable p s.cl[p].committed = true then s.opened p else r)
    (.refl _) fun p t ht => ?_
  obtain ⟨hopened, happlicable⟩ := ht.opened p
  change t.opened p = s.opened p at hopened
  change t.applicable p t.cl[p].committed = s.applicable p s.cl[p].committed at happlicable
  rw [happlicable]
  split
  · exact ⟨becomeApplicable_induction (fun _ p r hu => hu.putRecord p r) ht p, by rw [becomeApplicable_ru, hopened]⟩
  · exact ⟨ht, (t.ru.put_same p).symm⟩

end Sys2Proof.Machine
end

section
/-! The moves of a reminder record, and what they keep of it (R103, R110 to R119). -/

namespace Sys2Proof.Machine

/-! ## The moves -/

/-- The states of a person's unlatched belt: a latch ends them, and a class of UNKNOWN suspends them (R114, R118). -/
def Reminder.Escalating (x : Reminder) : Prop := x = .pending ∨ x = .stage1 ∨ x = .stage2 ∨ x = .expired

/-- The moves of R111 to R119 from the record `r`, with the counting of its timer and its marks. An INACTIVE reminder leaves that state
only where `opens` holds: where R109 lets a reminder be applicable. -/
inductive ReminderRecord.Move (opens : Prop) (r : ReminderRecord) : ReminderRecord → Prop where
  | close : r.Move opens .toInactive
  | latch (h : r.state ≠ .inactive ∨ opens) : r.Move opens .toBuckled
  | toPending (deadline : Option Time) (h : r.state ≠ .inactive ∨ opens) : r.Move opens (.toPending deadline)
  | toStage1 (timer : Nat) (now : Time) (h : r.state = .pending) : r.Move opens (.toStage1 timer now)
  | toStage2 (timer : Nat) (now : Time) (h : r.state = .pending ∨ r.state = .stage1) : r.Move opens (.toStage2 timer now)
  | expire (h : r.state = .stage2) : r.Move opens .toExpired
  | suspend (h : r.state.Escalating) : r.Move opens r.toSuspended
  | resume (now : Time) (h : r.state = .suspended) : r.Move opens (r.resumed now)
  | count (timer : Nat) (expiring triggered : Bool) (h : r.state = .stage1 ∨ r.state = .stage2 ∨ timer = r.timer) :
      r.Move opens { r with timer, expiring, triggered }

/-- A suspended record remembers an escalation, with the fields that it uses (R118). -/
theorem recordSound_toSuspended {r : ReminderRecord} (h : RecordSound r) (hescalating : r.state.Escalating) :
    RecordSound r.toSuspended := by
  unfold RecordSound at h ⊢
  rcases hescalating with hstate | hstate | hstate | hstate <;> simp_all [ReminderRecord.toSuspended]

/-- A resumed record has the fields that its remembered state uses (R119). -/
theorem recordSound_resumed {r : ReminderRecord} (h : RecordSound r) (hstate : r.state = .suspended) (now : Time) :
    RecordSound (r.resumed now) := by
  unfold RecordSound at h
  simp only [hstate] at h
  obtain ⟨hentry, hfields⟩ := h
  unfold ReminderRecord.resumed RecordSound
  split at hfields <;> simp_all

/-- A move clears each field that the state it enters does not use (R103). -/
theorem ReminderRecord.Move.keeps_sound {opens : Prop} {r u : ReminderRecord} (hmove : r.Move opens u) (h : RecordSound r) :
    RecordSound u := by
  cases hmove with
  | close | latch | expire => exact ⟨rfl, rfl, rfl, rfl⟩
  | toPending => exact ⟨rfl, rfl, rfl⟩
  | toStage1 | toStage2 => exact ⟨rfl, rfl⟩
  | suspend hescalating => exact recordSound_toSuspended h hescalating
  | resume now hstate => exact recordSound_resumed h hstate now
  | count timer expiring triggered hcount =>
    unfold RecordSound at h ⊢
    rcases hcount with hstate | hstate | rfl
    · simpa [hstate] using h
    · simpa [hstate] using h
    · exact h

/-- Where no reminder may open, an INACTIVE one stays so (R110). -/
theorem ReminderRecord.Move.keeps_inactive {opens : Prop} (hshut : ¬ opens) {r u : ReminderRecord} (hmove : r.Move opens u)
    (h : r.state = .inactive) : u.state = .inactive := by
  cases hmove with
  | close => rfl
  | count => exact h
  | _ => simp_all [Reminder.Escalating]

/-- What every move keeps of a record, a run of moves keeps. -/
theorem moves_keep {opens : Prop} {Q : ReminderRecord → Prop} (hQ : ∀ {r u}, ReminderRecord.Move opens r u → Q r → Q u)
    {r u : ReminderRecord} (h : Relation.ReflTransGen (ReminderRecord.Move opens) r u) (hr : Q r) : Q u := by
  induction h with
  | refl => exact hr
  | tail _ hmove ih => exact hQ hmove ih

end Sys2Proof.Machine
end

section
/-! The operations of the blocks move the reminders by the moves of R111 to R119 alone. -/

namespace Sys2Proof.Machine

/-! ## Runs of moves -/

/-- Reminders may become applicable: outside CONFIG with the ignition on (R109, R110). -/
def State.RemindersOpen (s : State) : Prop := s.mode ≠ .config ∧ s.ignitionOn = true

theorem mayApply_open {s : State} {p : Pos} (h : s.mayApply p = true) : s.RemindersOpen := by
  simp only [State.mayApply, Bool.and_eq_true, bne_iff_ne] at h
  exact ⟨h.1.2, h.2⟩

/-- From `s` to `t` the mode and the power mode stand, the ignition-on counter counts with the ignition on alone, and the reminders
move as R111 to R119 say. -/
structure RemindersRun (s t : State) : Prop where
  mode : t.mode = s.mode
  powerMode : t.vp.powerMode = s.vp.powerMode
  count : s.ignitionOn = false → t.ru.ignitionCount = s.ru.ignitionCount
  records : ∀ p : Pos, Relation.ReflTransGen (ReminderRecord.Move s.RemindersOpen) s.ru.records[p] t.ru.records[p]

theorem RemindersRun.refl (s : State) : RemindersRun s s := ⟨rfl, rfl, fun _ => rfl, fun _ => .refl⟩

section
variable {s t u : State} (h : RemindersRun s t)
include h

theorem RemindersRun.ignitionOn : t.ignitionOn = s.ignitionOn := congrArg PowerMode.ignition h.powerMode

theorem RemindersRun.opens : t.RemindersOpen ↔ s.RemindersOpen := by
  rw [State.RemindersOpen, h.mode, h.ignitionOn, State.RemindersOpen]

theorem RemindersRun.trans (htu : RemindersRun t u) : RemindersRun s u := by
  refine ⟨htu.mode.trans h.mode, htu.powerMode.trans h.powerMode, fun hoff => ?_, fun p => (h.records p).trans ?_⟩
  · exact (htu.count (h.ignitionOn.trans hoff)).trans (h.count hoff)
  · simpa only [h.opens] using htu.records p

/-- Each record makes at most one move more, and the counter counts with the ignition on. -/
theorem RemindersRun.step (hmode : u.mode = t.mode) (hpower : u.vp.powerMode = t.vp.powerMode)
    (hcount : t.ignitionOn = false → u.ru.ignitionCount = t.ru.ignitionCount)
    (hrecords : ∀ p : Pos, u.ru.records[p] = t.ru.records[p] ∨ t.ru.records[p].Move t.RemindersOpen u.ru.records[p]) :
    RemindersRun s u := by
  refine ⟨hmode.trans h.mode, hpower.trans h.powerMode, fun hoff => ?_, fun p => ?_⟩
  · exact (hcount (h.ignitionOn.trans hoff)).trans (h.count hoff)
  · rcases hrecords p with hsame | hmove
    · rw [hsame]
      exact h.records p
    · exact (h.records p).tail (by rwa [h.opens] at hmove)

theorem RemindersRun.frame (hmode : u.mode = t.mode) (hpower : u.vp.powerMode = t.vp.powerMode) (hru : u.ru = t.ru) :
    RemindersRun s u :=
  h.step hmode hpower (fun _ => by rw [hru]) fun p => .inl (by rw [hru])

/-! ## The operations that several blocks share -/

@[simp] theorem run_queueEvent (k : EventKind) (a b c : Byte) : RemindersRun s (t.queueEvent k a b c) := by
  rw [queueEvent_does]
  exact h.frame rfl rfl rfl

@[simp] theorem run_stationEvent (k : EventKind) (st : Station) (a b : Byte) : RemindersRun s (t.stationEvent k st a b) :=
  run_queueEvent h ..

@[simp] theorem run_positionEvent (k : EventKind) (p : Pos) (a b : Byte) : RemindersRun s (t.positionEvent k p a b) :=
  run_queueEvent h ..

@[simp] theorem run_setQuality (p : Pos) (f : Quality → Quality) : RemindersRun s (t.setQuality p f) := h.frame rfl rfl rfl

@[simp] theorem run_handClass (p : Pos) (c : Cls) : RemindersRun s (t.handClass p c) := h.frame rfl rfl rfl

@[simp] theorem run_giveSuppression : RemindersRun s t.giveSuppression := h.frame rfl rfl rfl

@[simp] theorem run_classes (cl : Vector ClassRecord 16) : RemindersRun s { t with cl } := h.frame rfl rfl rfl

@[simp] theorem run_store (ss : SampleStore) : RemindersRun s { t with ss } := h.frame rfl rfl rfl

@[simp] theorem run_putLine (l : LineController) : RemindersRun s (t.putLine l) := h.frame rfl rfl rfl

@[simp] theorem run_setNode (st : Station) (f : Node → Node) : RemindersRun s (t.setNode st f) := h.frame rfl rfl rfl

theorem run_forEach {α : Type} {xs : List α} {f : α → State → State} (hf : ∀ x u, RemindersRun s u → RemindersRun s (f x u)) :
    RemindersRun s (forEach xs f t) :=
  forEach_induction (RemindersRun s) xs f t h hf

/-! ## Reminders -/

theorem run_putRecord {p : Pos} {r : ReminderRecord} (hmove : t.ru.records[p].Move t.RemindersOpen r) :
    RemindersRun s (t.putRecord p r) := by
  obtain ⟨hru, -, -, hvp, -⟩ := putRecord_does t p r
  refine h.step (by simp) (by rw [hvp]) (fun _ => by rw [hru]) fun q => ?_
  rw [putRecord_record]
  by_cases hq : q = p
  · subst hq
    exact .inr (by simpa using hmove)
  · exact .inl (if_neg hq)

@[simp] theorem run_putBuckle (p : Pos) (b : Buckle) : RemindersRun s (t.putBuckle p b) := by
  obtain ⟨hru, hvp, -⟩ := putBuckle_does t p b
  exact h.step (by simp) (by rw [hvp]) (fun _ => by rw [hru]) fun q => .inl (by rw [hru])

@[simp] theorem run_triggerTest (p : Pos) : RemindersRun s (t.triggerTest p) := by
  unfold State.triggerTest
  split
  next hholds =>
    rw [Bool.and_eq_true, awaitsTrigger_iff] at hholds
    exact run_putRecord h (.toStage1 _ _ hholds.1.1)
  next => exact h

@[simp] theorem run_deadlineTest (p : Pos) : RemindersRun s (t.deadlineTest p) := by
  unfold State.deadlineTest
  split
  next hreached => exact run_putRecord h (.toStage2 _ _ (.inl (deadlineReached_pending hreached)))
  next => exact h

theorem run_enterPending {p : Pos} {r : ReminderRecord} (hmove : t.ru.records[p].Move t.RemindersOpen r) :
    RemindersRun s (t.enterPending p r) :=
  run_deadlineTest (run_triggerTest (run_putRecord h hmove) p) p

@[simp] theorem run_takeTrigger (p : Pos) : RemindersRun s (t.takeTrigger p) := by
  unfold State.takeTrigger
  split
  next hmarked =>
    rw [Bool.and_eq_true, awaitsTrigger_iff] at hmarked
    exact run_putRecord h (.toStage1 _ _ hmarked.2.1)
  next => exact h

@[simp] theorem run_expireStage (p : Pos) : RemindersRun s (t.expireStage p) := by
  unfold State.expireStage
  split
  next hstate => exact run_putRecord h (.toStage2 _ _ (.inr hstate))
  next hstate => exact run_putRecord h (.expire hstate)
  next => exact h

@[simp] theorem run_takeExpiry (p : Pos) : RemindersRun s (t.takeExpiry p) := by
  unfold State.takeExpiry; split <;> simp [h]

@[simp] theorem run_takeDueMoves : RemindersRun s t.takeDueMoves := run_forEach h fun _ _ hu => by simp [hu]

@[simp] theorem run_latch (p : Pos) : RemindersRun s (t.latch p) := by
  unfold State.latch
  dsimp only
  split <;> simp_all [run_putRecord h (.latch _)]

@[simp] theorem run_unlatch (p : Pos) : RemindersRun s (t.unlatch p) := by
  unfold State.unlatch
  dsimp only
  split
  next hbuckled =>
    have hopen : t.ru.records[p].state ≠ .inactive ∨ t.RemindersOpen := .inl (by rw [hbuckled]; exact nofun)
    split <;> exact run_enterPending h (.toPending _ hopen)
  next => exact h

@[simp] theorem run_buckleReading (p : Pos) (x : Reading) : RemindersRun s (t.buckleReading p x) := by
  unfold State.buckleReading; dsimp only; (repeat' split) <;> simp [h]

@[simp] theorem run_resetBuckle (p : Pos) : RemindersRun s (t.resetBuckle p) := run_putBuckle h ..

@[simp] theorem run_resetBuckles : RemindersRun s t.resetBuckles := run_forEach h fun _ _ hu => by simp [hu]

theorem run_becomeApplicable {p : Pos} (hopens : t.RemindersOpen) : RemindersRun s (t.becomeApplicable p) := by
  unfold State.becomeApplicable
  dsimp only
  split
  · exact run_putRecord h (.latch (.inr hopens))
  · exact run_enterPending h (.toPending none (.inr hopens))

theorem run_reminderUnknown (p : Pos) : RemindersRun s (t.reminderUnknown p) := by
  unfold State.reminderUnknown
  dsimp only
  cases hstate : t.ru.records[p].state with
  | pending | stage1 | stage2 | expired => exact run_putRecord h (.suspend (by rw [hstate]; simp [Reminder.Escalating]))
  | buckled => exact run_putRecord h .close
  | inactive | suspended => exact h

theorem run_resume {p : Pos} (hstate : t.ru.records[p].state = .suspended) : RemindersRun s (t.resume p) := by
  unfold State.resume
  dsimp only
  split
  · exact run_putRecord h (.latch (.inl (by rw [hstate]; exact nofun)))
  · exact run_enterPending h (.resume _ hstate)

/-- A class handed to RU opens a reminder only where it may open (R111, R117 to R119). -/
@[simp] theorem run_reminderClass (p : Pos) (old new : Cls) : RemindersRun s (t.reminderClass p old new) := by
  unfold State.reminderClass
  dsimp only
  split
  · exact run_reminderUnknown h p
  · split
    · split
      next hstate => exact run_resume h hstate
      next =>
        split
        next hopens => exact run_becomeApplicable h (mayApply_open hopens.2.2)
        next => exact h
    · exact run_putRecord h .close

theorem run_ignitionComesOn : RemindersRun s t.ignitionComesOn := by
  have hset : RemindersRun s { t with ru := { t.ru with ignitionTime := t.tb.time } } :=
    h.step rfl rfl (fun _ => rfl) fun _ => .inl rfl
  refine run_forEach hset fun p u hu => ?_
  split
  next hopens =>
    have hmay := hopens.2
    simp only [State.applicable, Bool.and_eq_true] at hmay
    exact run_becomeApplicable hu (mayApply_open hmay.1)
  next => exact hu

/-- A trigger test marks records, and does not move them (log entry 14). -/
@[simp] theorem run_markTriggers : RemindersRun s t.markTriggers :=
  h.step rfl rfl (fun _ => rfl) fun p => .inr (by
    rw [markTriggers_does, tested_does]
    exact .count _ _ _ (.inr (.inr rfl)))

@[simp] theorem run_speedChange : RemindersRun s t.speedChange := by
  unfold State.speedChange; split <;> simp [h]

/-- A 100 ms tick counts the timers of the stages alone, and the ignition-on counter with the ignition on (R108, R113). -/
@[simp] theorem run_reminderTick (v : Time) : RemindersRun s (t.reminderTick v) := by
  refine run_markTriggers (h.step rfl rfl (fun hoff => ?_) fun p => ?_)
  · simp [State.countIgnition, hoff]
  · by_cases hcounts : t.ru.records[p].Counts v
    · refine .inr ?_
      simp only [Fin.getElem_fin, Vector.getElem_ofFn]
      rw [countDown_does]
      exact .count _ _ _ (hcounts.1.imp_right .inl)
    · exact .inl (by simpa using countDown_of_not_counts hcounts)

@[simp] theorem run_outputTick (v : Time) : RemindersRun s (t.outputTick v) := by
  unfold State.outputTick
  dsimp only
  split
  · exact h.frame rfl rfl rfl
  · exact h

end

end Sys2Proof.Machine
end

section
/-! The operations on classes, samples, stations and steps move the reminders by the moves of R111 to R119 alone. -/

namespace Sys2Proof.Machine

section
variable {s t : State} (h : RemindersRun s t)
include h

/-! ## Classes -/

/-- A committed class goes to RU, and CL's own records move no reminder (R95). -/
@[simp] theorem run_setClass (p : Pos) (c : Cls) : RemindersRun s (t.setClass p c) := by
  have hclassed : RemindersRun s (t.classed p c) := run_classes h _
  by_cases hnew : c = t.cl[p].committed
  · rwa [setClass_same hnew]
  · have hhanded : RemindersRun s (t.classHanded p c) := run_handClass (run_reminderClass hclassed ..) ..
    rw [setClass_new hnew]
    split
    · exact run_giveSuppression hhanded
    · exact hhanded

@[simp] theorem run_updateRough (p : Pos) : RemindersRun s (t.updateRough p) := run_setQuality h ..

@[simp] theorem run_classifyClean (p : Pos) (raw : Cls) (c : Nat) : RemindersRun s (t.classifyClean p raw c) := by
  unfold State.classifyClean; dsimp only; split <;> simp [h]

@[simp] theorem run_classify (p : Pos) (b : Thresholds) (w : WindowResult) : RemindersRun s (t.classify p b w) := by
  unfold State.classify
  dsimp only
  refine run_updateRough ?_ p
  split
  · exact run_classes (run_classes h _) _
  · exact run_classifyClean (run_classes h _) ..

@[simp] theorem run_flushClass (p : Pos) : RemindersRun s (t.flushClass p) :=
  run_setClass (run_setQuality (run_classes h _) ..) ..

@[simp] theorem run_fittingChange (p : Pos) (b : Bool) : RemindersRun s (t.fittingChange p b) := by
  unfold State.fittingChange; (repeat' split) <;> simp [h]

/-! ## Samples and evaluations -/

@[simp] theorem run_dropSample (p : Pos) : RemindersRun s (t.dropSample p) := by
  have hlost := run_store h { t.ss with chains := upd t.ss.chains p fun c => { c with loss := true } }
  unfold State.dropSample
  dsimp only
  split
  · exact hlost
  · exact run_positionEvent (run_setQuality hlost ..) ..

@[simp] theorem run_arrive (p : Pos) (x : PlaceSample) : RemindersRun s (t.arrive p x) := by
  unfold State.arrive State.scheduleTest
  refine run_store ?_ _
  split <;> simp [h]

@[simp] theorem run_flush (p : Pos) (b : Bool) : RemindersRun s (t.flush p b) := by
  have hflushed := run_flushClass (run_store h (t.ss.flush p)) p
  unfold State.flush
  dsimp only
  split
  · exact run_resetBuckle hflushed p
  · exact hflushed

@[simp] theorem run_flushAll : RemindersRun s t.flushAll := run_forEach h fun _ _ hu => by simp [hu]

@[simp] theorem run_clearLosses : RemindersRun s t.clearLosses := run_forEach (run_store h _) fun _ _ hu => by simp [hu]

@[simp] theorem run_resetStore : RemindersRun s t.resetStore := run_forEach (run_store h _) fun _ _ hu => by simp [hu]

@[simp] theorem run_settleLoss (p : Pos) : RemindersRun s (t.settleLoss p) := by
  unfold State.settleLoss
  refine run_store ?_ _
  split <;> simp [h]

@[simp] theorem run_completeEvaluation (e : Evaluation) : RemindersRun s (t.completeEvaluation e) := by
  have hvalid : RemindersRun s (t.validCompletion e) := run_settleLoss (run_store (run_classify h ..) _) _
  have hcompleted : RemindersRun s (if t.ss.chains[e.pos].epoch = e.epoch then t.validCompletion e else t) := by
    split <;> simp [h, hvalid]
  exact hcompleted.frame rfl rfl rfl

@[simp] theorem run_settleReset : RemindersRun s t.settleReset := by
  have hended : RemindersRun s { t with we := none, change := .none } := h.frame rfl rfl rfl
  exact (run_resetStore hended).frame rfl rfl rfl

/-! ## Stations and the outcome of a poll -/

@[simp] theorem run_lookupCalibration (st : Station) : RemindersRun s (t.lookupCalibration st) :=
  run_forEach (run_setNode h ..) fun _ _ hu => by simp [hu]

@[simp] theorem run_reportCalMissing (st : Station) : RemindersRun s (t.reportCalMissing st) := by
  unfold State.reportCalMissing; split <;> simp [h]

@[simp] theorem run_checkPlace (st : Station) (p : Pos) : RemindersRun s (t.checkPlace st p) := by
  unfold State.checkPlace; dsimp only; (repeat' split) <;> simp [h]

@[simp] theorem run_placeCheck (st : Station) : RemindersRun s (t.placeCheck st) := run_forEach h fun _ _ hu => by simp [hu]

@[simp] theorem run_reviewDefaultCal (st : Station) : RemindersRun s (t.reviewDefaultCal st) :=
  run_forEach h fun _ _ hu => by simp [hu]

@[simp] theorem run_activationEvent (st : Station) (old : Node) (a : Byte) (n : Nat) :
    RemindersRun s (t.activationEvent st old a n) := by
  unfold State.activationEvent; (repeat' split) <;> simp [h]

@[simp] theorem run_activate (st : Station) (a : Byte) (n l : Nat) : RemindersRun s (t.activate st a n l) :=
  run_reviewDefaultCal (run_placeCheck (run_reportCalMissing (run_activationEvent
    (run_lookupCalibration (run_setNode h ..) _) ..) _) _) _

@[simp] theorem run_flushStation (st : Station) : RemindersRun s (t.flushStation st) := run_forEach h fun _ _ hu => by simp [hu]

@[simp] theorem run_seatChange (st : Station) (a : Byte) (n l : Nat) : RemindersRun s (t.seatChange st a n l) :=
  run_reviewDefaultCal (run_placeCheck (run_reportCalMissing (run_stationEvent
    (run_lookupCalibration (run_setNode (run_flushStation h _) ..) _) ..) _) _) _

@[simp] theorem run_linkLoss (st : Station) : RemindersRun s (t.linkLoss st) :=
  run_stationEvent (run_forEach (by simp [h]) fun _ _ hu => by simp [hu]) ..

@[simp] theorem run_miss (st : Station) : RemindersRun s (t.miss st) := by
  unfold State.miss; dsimp only; split <;> simp [h]

@[simp] theorem run_noteHop (st : Station) (l : Nat) : RemindersRun s (t.noteHop st l) := by
  unfold State.noteHop; dsimp only; split <;> simp [h]

@[simp] theorem run_deliverSamples (st : Station) (xs : List PlaceSample) : RemindersRun s (t.deliverSamples st xs) :=
  run_forEach h fun _ _ hu => by split <;> simp [hu]

@[simp] theorem run_identifyActive (st : Station) (a : Byte) (n l : Nat) : RemindersRun s (t.identifyActive st a n l) := by
  unfold State.identifyActive; dsimp only; split <;> simp [h]

@[simp] theorem run_sampleActive (st : Station) (a : Byte) (n l : Nat) (xs : List PlaceSample) :
    RemindersRun s (t.sampleActive st a n l xs) := by
  unfold State.sampleActive; dsimp only; (repeat' split) <;> simp [h]

@[simp] theorem run_takeOutcome (st : Station) (k : PollKind) (l : Nat) (o : ReplyOutcome) :
    RemindersRun s (t.takeOutcome st k l o) := by
  unfold State.takeOutcome; (repeat' split) <;> simp [h]

@[simp] theorem run_deliver (p : Poll) (o : ReplyOutcome) : RemindersRun s (t.deliver p o) :=
  run_takeOutcome (run_putLine h { t.lc with poll := none }) ..

@[simp] theorem run_takeStartBit (p : Poll) (c : Nat) : RemindersRun s (t.takeStartBit p c) := by
  unfold State.takeStartBit; dsimp only; (repeat' split) <;> simp [h]

@[simp] theorem run_readByte (p : Poll) : RemindersRun s (t.readByte p) := by
  unfold State.readByte; dsimp only; (repeat' split) <;> simp [h]

@[simp] theorem run_runLookup (st : Station) : RemindersRun s (t.runLookup st) := by
  unfold State.runLookup
  split
  · exact run_reportCalMissing (run_lookupCalibration (run_setNode h ..) _) _
  · exact h

@[simp] theorem run_runLinkDown (p : Pos) : RemindersRun s (t.runLinkDown p) := by
  unfold State.runLinkDown; (repeat' split) <;> simp [h]

@[simp] theorem run_stationsEnterRun : RemindersRun s t.stationsEnterRun := by
  have hrouted : RemindersRun s { t with sm := { t.sm with routing := t.tables.buildRouting } } := h.frame rfl rfl rfl
  refine run_forEach (run_forEach (run_forEach hrouted ?_) ?_) ?_
  · exact fun _ _ hu => by simp [hu]
  · exact fun _ _ hu => by split <;> simp [hu]
  · exact fun _ _ hu => by simp [hu]

/-! ## The parts of a step -/

@[simp] theorem run_mapStep (f : StepRun → StepRun) : RemindersRun s (t.mapStep f) := h.frame (by simp) (by simp) (by simp)

@[simp] theorem run_finish (w : Work) : RemindersRun s (t.finish w) := h.frame rfl rfl rfl

@[simp] theorem run_timeBase (tb : TimeBase) : RemindersRun s { t with tb } := h.frame rfl rfl rfl

@[simp] theorem run_testDeadlines : RemindersRun s t.testDeadlines := by
  unfold State.testDeadlines
  split
  · exact run_mapStep (run_forEach h fun _ _ hu => by simp [hu]) _
  · exact h

@[simp] theorem run_handTicks10 : RemindersRun s t.handTicks10 :=
  List.foldlRecOn (motive := RemindersRun s) _ _ (run_timeBase h _) fun _ hu v _ => run_outputTick hu v

@[simp] theorem run_handTicks100 : RemindersRun s t.handTicks100 :=
  List.foldlRecOn (motive := RemindersRun s) _ _ (run_timeBase h _) fun _ hu v _ => run_takeDueMoves (run_reminderTick hu v)

@[simp] theorem run_endStep : RemindersRun s t.endStep := by
  unfold State.endStep
  exact run_mapStep (run_handTicks100 (run_handTicks10 (run_takeDueMoves (run_testDeadlines h)))) _

@[simp] theorem run_beginStep : RemindersRun s t.beginStep := h.frame (by simp) (by simp) (by simp)

@[simp] theorem run_goOn : RemindersRun s t.goOn := by
  unfold State.goOn; dsimp only; (repeat' split) <;> simp [h]

@[simp] theorem run_takeTick10 : RemindersRun s t.takeTick10 := by
  have htested : RemindersRun s (if t.mode = .hold then t.testDeadlines else t) := by split <;> simp [h]
  unfold State.takeTick10
  dsimp only
  split
  · exact htested
  · exact run_outputTick (run_timeBase htested _) _

@[simp] theorem run_takeTick100 : RemindersRun s t.takeTick100 := by
  have htested : RemindersRun s (if t.mode = .hold then t.testDeadlines else t) := by split <;> simp [h]
  unfold State.takeTick100
  dsimp only
  split
  · exact htested
  · exact run_reminderTick (run_timeBase htested _) _

/-! ## The speed and the words that a request stores -/

theorem run_putPort {v : VehiclePort} (hpower : v.powerMode = t.vp.powerMode) : RemindersRun s (t.putPort v) :=
  h.frame rfl hpower rfl

@[simp] theorem run_handStale : RemindersRun s t.handStale := run_speedChange (run_putPort h rfl)

@[simp] theorem run_takeSpeed (b : Byte) : RemindersRun s (t.takeSpeed b) := by
  have hfresh : RemindersRun s (if t.vp.staleDue = true then t.handStale else t) := by split <;> simp [h]
  have hstored := run_putPort hfresh
    (v := { (if t.vp.staleDue = true then t.handStale else t).vp with speed := b, staleness := 0 }) rfl
  unfold State.takeSpeed
  dsimp only
  split <;> simp [hstored]

@[simp] theorem run_storeWord (a : Address) (v : Word) : RemindersRun s (t.storeWord a v) := by
  unfold State.storeWord; split <;> exact h.frame rfl rfl rfl

@[simp] theorem run_writeEffects (u : State) (a : Address) : RemindersRun s (t.writeEffects u a) := by
  unfold State.writeEffects; split <;> simp [h]

@[simp] theorem run_writeWord (a : Address) (v : Word) : RemindersRun s (t.writeWord a v) := by
  simp [State.writeWord, h]

@[simp] theorem run_writeAll (ps : List Pos) (w : Fin 4) (v : Word) : RemindersRun s (t.writeAll ps w v) :=
  run_forEach (run_forEach h fun _ _ hu => by simp [hu]) fun _ _ hu => by simp [hu]

end

end Sys2Proof.Machine
end

section
/-! Every step keeps the reminders INACTIVE in CONFIG and without ignition, and each field of a record in the states that use it
(R103, R108, R110). -/

namespace Sys2Proof.Machine

/-! ## What a step can make of the reminders -/

/-- What an effect of a row can make of the reminders: they run from a state that lets reminders open where `s` does and has the records
and the counter of `s`, or from one in which every reminder has been closed. -/
inductive RemindersTouched (s : State) : State → Prop where
  | opened {t u : State} (hmode : s.mode ≠ .config → t.mode ≠ .config) (hignition : s.ignitionOn = true → t.ignitionOn = true)
      (hcount : t.ru.ignitionCount = s.ru.ignitionCount) (hrecords : t.ru.records = s.ru.records) (h : RemindersRun t u) :
      RemindersTouched s u
  | closed {t u : State}
      (hcount : t.ignitionOn = false → t.ru.ignitionCount = 0 ∨ s.ignitionOn = false ∧ t.ru.ignitionCount = s.ru.ignitionCount)
      (hrecords : ∀ p : Pos, t.ru.records[p] = .toInactive) (h : RemindersRun t u) : RemindersTouched s u

theorem RemindersRun.touched {s t : State} (h : RemindersRun s t) : RemindersTouched s t := .opened id id rfl rfl h

theorem RemindersTouched.trans_run {s t u : State} (h : RemindersTouched s t) (htu : RemindersRun t u) : RemindersTouched s u := by
  cases h with
  | opened hmode hignition hcount hrecords h => exact .opened hmode hignition hcount hrecords (h.trans htu)
  | closed hcount hrecords h => exact .closed hcount hrecords (h.trans htu)

/-- The mode changes, and the ignition and the reminders stand. -/
theorem touched_of_mode {s t : State} (hmode : t.mode ≠ .config) (hpower : t.vp.powerMode = s.vp.powerMode)
    (hru : t.ru = s.ru) : RemindersTouched s t :=
  .opened (fun _ => hmode) (fun hon => (congrArg PowerMode.ignition hpower).trans hon) (by rw [hru]) (by rw [hru]) (.refl t)

theorem touched_blank (s : State) (power : Power) (base : BitVec 11) (pending : List Instr) :
    RemindersTouched s (State.blank power base pending) :=
  .closed (fun _ => .inl rfl) (fun p => by simp [State.blank, ReminderRecord.toInactive]) (.refl (State.blank power base pending))

/-- Every reminder is closed in a part whose counter is 0 without ignition, if that of `s` is. -/
theorem touched_allInactive {s t : State}
    (hcount : t.ignitionOn = false → t.ru.ignitionCount = 0 ∨ s.ignitionOn = false ∧ t.ru.ignitionCount = s.ru.ignitionCount) :
    RemindersTouched s t.allInactive := by
  obtain ⟨honly, hrecords⟩ := allInactive_does t
  obtain ⟨hignition, hstands, -⟩ := honly.inputs
  refine .closed (t := t.allInactive) ?_ hrecords (.refl _)
  rwa [hignition, hstands]

theorem enterMode_powerMode (s : State) (m : Mode) : (s.enterMode m).vp.powerMode = s.vp.powerMode := by
  unfold State.enterMode
  rw [queueEvent_does]

/-- An entry to CONFIG closes every reminder, and the flush that follows opens none (R120, R169). -/
theorem touched_enterConfig (s : State) : RemindersTouched s s.enterConfig := by
  have hpower := enterMode_powerMode s .config
  unfold State.enterConfig
  dsimp only
  refine (touched_allInactive fun hoff => .inr ⟨?_, ?_⟩).trans_run (run_flushAll (run_resetBuckles (.refl _)))
  · simpa only [State.ignitionOn, hpower] using hoff
  · simp

theorem touched_enterRun (s : State) : RemindersTouched s s.enterRun := by
  have hentered := run_stationsEnterRun (run_clearLosses (run_flushAll (.refl (s.enterMode .run))))
  refine (touched_of_mode (t := s.enterMode .run) nofun (enterMode_powerMode ..) (by simp)).trans_run ?_
  unfold State.enterRun
  dsimp only
  generalize (s.enterMode .run).flushAll.clearLosses.stationsEnterRun = t at hentered ⊢
  exact hentered.frame rfl rfl rfl

theorem touched_enterHold (s : State) : RemindersTouched s s.enterHold := by
  have hpower := enterMode_powerMode s.holdLamps .hold
  exact touched_of_mode (by simp [State.enterHold, State.enterMode, State.queueEvent]) hpower (by simp)

theorem touched_resetRuntime (s : State) : RemindersTouched s s.resetRuntime := by
  obtain ⟨-, -, -, hru, -⟩ := resetRuntime_does s
  exact .closed (t := s.resetRuntime) (fun _ => .inl (by rw [hru])) (fun p => by rw [hru]; simp [ReminderRecord.toInactive])
    (.refl _)

/-- The ignition comes on, goes off with every reminder closed, or stands (R107, R108, R117). -/
theorem touched_takePowerMode (s : State) (m : PowerMode) : RemindersTouched s (s.takePowerMode m) := by
  let t := s.putPort { s.vp with powerMode := m }
  have ht : t.ignitionOn = m.ignition := rfl
  unfold State.takePowerMode
  dsimp only
  split
  next hsame => exact .opened (t := t) id (fun hon => ht.trans (hsame.symm.trans hon)) rfl rfl (.refl _)
  next =>
    split
    next hon => exact .opened (t := t) id (fun _ => ht.trans hon) rfl rfl (run_ignitionComesOn (.refl _))
    next => exact touched_allInactive (t := { t with ru := { t.ru with ignitionCount := 0 } }) fun _ => .inl rfl

theorem VehiclePort.release_powerMode (v : VehiclePort) (a : Attempt) : (v.release a).powerMode = v.powerMode := by
  unfold release
  split
  · rw [refill_does]
  · rfl

theorem VehiclePort.fail_powerMode (v : VehiclePort) (a : Attempt) : (v.fail a).powerMode = v.powerMode := by
  rw [← v.release_powerMode a]
  unfold fail
  dsimp only
  split <;> rfl

theorem VehiclePort.succeed_powerMode (v : VehiclePort) (a : Attempt) : (v.succeed a).powerMode = v.powerMode := by
  unfold succeed settleSlot
  split
  case h_3 => rw [refill_does]
  all_goals rfl

/-- A served request moves the reminders by the effects of the words it stores, or by the entry to a mode. -/
theorem Served.remindersTouched {s t : State} {w : Work} (hserved : Served s t w) : RemindersTouched s t := by
  have hframe {u v : State} (h : RemindersTouched s u) (hmode : v.mode = u.mode) (hvp : v.vp = u.vp) (hru : v.ru = u.ru) :
      RemindersTouched s v := h.trans_run ((RemindersRun.refl u).frame hmode (by rw [hvp]) hru)
  cases hserved with
  | answered => exact (RemindersRun.refl s).touched
  | wrote a v => exact (run_writeWord (.refl s) a v).touched
  | wroteAll ps k v => exact (run_writeAll (.refl s) ps k v).touched
  | run => exact touched_enterRun s
  | hold => exact touched_enterHold s
  | holdSettling => exact hframe (touched_enterHold s) rfl rfl rfl
  | config => exact touched_enterConfig s
  | configWaiting | queued => exact hframe (RemindersRun.refl s).touched rfl rfl rfl
  | reset => exact (touched_resetRuntime s).trans_run (run_resetStore (.refl _))
  | resetSettling => exact hframe (touched_resetRuntime s) rfl rfl rfl

/-! ## Promises about the reminders -/

section
variable {P : State → Prop} (hP : ∀ {s t : State}, RemindersTouched s t → P s → P t)
include hP

/-- A promise that survives what an effect of a row can make of the reminders survives the vehicle inputs (R107). -/
theorem takeInputs_keeps {s : State} (h : P s) (speed power : Option Byte) : P (s.takeInputs speed power) := by
  have hspeed : P (match speed with
      | some b => s.takeSpeed b
      | none => s) := by
    split
    · exact hP (run_takeSpeed (.refl s) _).touched h
    · exact h
  unfold State.takeInputs
  dsimp only
  split
  · exact hP (touched_takePowerMode ..) hspeed
  · exact hspeed

theorem RowEffect.keeps_reminders {s t : State} (heffect : RowEffect s t) (h : P s) : P t := by
  have hrun {u : State} (hu : RemindersRun s u) : P u := hP hu.touched h
  have hframe {u : State} (hmode : u.mode = s.mode) (hpower : u.vp.powerMode = s.vp.powerMode) (hru : u.ru = s.ru) : P u :=
    hrun ((RemindersRun.refl s).frame hmode hpower hru)
  cases heffect with
  | nothing => exact h
  | fresh straps => exact hP (touched_blank s .on (identifierBase straps) s.pending) h
  | blank power => exact hP (touched_blank ..) h
  | frame f =>
    refine receive_induction P h (fun t speed power ht => takeInputs_keeps hP ht speed power) (fun _ => ?_) ?_ f
    · exact hframe rfl rfl rfl
    · intro t w r _ hserved
      exact hP (hserved.remindersTouched.trans_run ((RemindersRun.refl t).frame rfl rfl rfl)) h
  | configEntry =>
    have hentered := touched_enterConfig s
    generalize s.enterConfig = u at hentered ⊢
    exact hP (hentered.trans_run ((RemindersRun.refl u).frame rfl rfl rfl)) h
  | portTick | suppressionDue | transmit | handOver => exact hframe rfl rfl rfl
  | statusDue kind => cases kind <;> exact hframe rfl rfl rfl
  | recovery => exact hrun (run_queueEvent (run_putPort (.refl s) (v := { s.vp with busOff := false, failures := 0 }) rfl) ..)
  | @success a => exact hframe rfl (VehiclePort.succeed_powerMode ..) rfl
  | @lost a => exact hframe rfl (VehiclePort.release_powerMode ..) rfl
  | @failure a => exact hframe rfl (VehiclePort.fail_powerMode ..) rfl
  | millisecond | slotStart | samples | pollSend | pollEnd | evaluationStart | holdSettled =>
    exact hframe (by simp) (by simp) (by simp)
  | @completion e => exact hrun ((run_completeEvaluation (.refl s) e).frame (by simp) (by simp) (by simp))
  | deadline p hmoment hreached => exact hrun (run_putRecord (.refl s) (.toStage2 _ _ (.inl (deadlineReached_pending hreached))))
  | @stepAdvance _ l => exact hrun (run_goOn (run_putLine (.refl s) l))
  | _ => exact hrun (by simp [RemindersRun.refl])

end

/-! ## The two promises -/

theorem RemindersRun.keeps_sound {s t : State} (h : RemindersRun s t) (hs : RecordsSound s) : RecordsSound t := fun p =>
  moves_keep (fun hmove => hmove.keeps_sound) (h.records p) (hs p)

/-- While reminders may not open, closed ones stay closed. -/
theorem RemindersRun.keeps_inactive {s t : State} (h : RemindersRun s t) (hshut : ¬ s.RemindersOpen) {p : Pos}
    (hs : s.ru.records[p].state = .inactive) : t.ru.records[p].state = .inactive :=
  moves_keep (Q := fun r => r.state = .inactive) (fun hmove => hmove.keeps_inactive hshut) (h.records p) hs

theorem recordsSound_touched {s t : State} (h : RemindersTouched s t) (hs : RecordsSound s) : RecordsSound t := by
  cases h with
  | opened _ _ _ hrecords h => exact h.keeps_sound fun p => by rw [hrecords]; exact hs p
  | closed _ hrecords h => exact h.keeps_sound fun p => by rw [hrecords]; exact ⟨rfl, rfl, rfl, rfl⟩

theorem remindersClosed_iff (s : State) : RemindersClosed s ↔
    (¬ s.RemindersOpen → ∀ p : Pos, s.ru.records[p].state = .inactive) ∧ (s.ignitionOn = false → s.ru.ignitionCount = 0) := by
  have hshut : (s.mode = .config ∨ s.ignitionOn = false) ↔ ¬ s.RemindersOpen := by
    rw [State.RemindersOpen, Classical.not_and_iff_not_or_not, not_not, Bool.not_eq_true]
  rw [RemindersClosed, hshut]

theorem remindersClosed_run {s t : State} (h : RemindersRun s t) (hs : RemindersClosed s) : RemindersClosed t := by
  rw [remindersClosed_iff] at hs ⊢
  obtain ⟨hinactive, hcount⟩ := hs
  rw [h.opens, h.ignitionOn]
  exact ⟨fun hshut p => h.keeps_inactive hshut (hinactive hshut p), fun hoff => (h.count hoff).trans (hcount hoff)⟩

/-- Where fewer conditions shut the reminders, or all have been closed, the reminders that must be closed are. -/
theorem remindersClosed_touched {s t : State} (h : RemindersTouched s t) (hs : RemindersClosed s) : RemindersClosed t := by
  rw [remindersClosed_iff] at hs
  obtain ⟨hinactive, hcount⟩ := hs
  cases h with
  | opened hmode hignition hstands hrecords h =>
    refine remindersClosed_run h ((remindersClosed_iff _).mpr ⟨fun hshut p => ?_, fun hoff => ?_⟩)
    · rw [hrecords]
      exact hinactive (fun hopen => hshut ⟨hmode hopen.1, hignition hopen.2⟩) p
    · rw [hstands]
      refine hcount (Bool.eq_false_iff.mpr fun hon => ?_)
      simp [hignition hon] at hoff
  | closed hstands hrecords h =>
    refine remindersClosed_run h ((remindersClosed_iff _).mpr ⟨fun _ p => by rw [hrecords]; rfl, fun hoff => ?_⟩)
    rcases hstands hoff with hzero | ⟨hoff', hsame⟩
    · exact hzero
    · exact hsame.trans (hcount hoff')

/-- Settles O58: both promises survive what an effect of a row can make of the reminders. -/
theorem everyStepKeepsTheRemindersSound : Obligations.EveryStepKeepsTheRemindersSound :=
  ⟨fun _ _ hs hstep => step_induction RemindersClosed (fun _ _ h => h)
      (fun _ _ heffect => heffect.keeps_reminders remindersClosed_touched) hs hstep,
    fun _ _ hs hstep => step_induction RecordsSound (fun _ _ h => h)
      (fun _ _ heffect => heffect.keeps_reminders recordsSound_touched) hs hstep⟩

end Sys2Proof.Machine
end

section
/-! PENDING_TRIGGER and STAGE_EXPIRY: the marked moves (R112, R113, R122). -/

namespace Sys2Proof.Machine

theorem takeTrigger_marked {s : State} {p : Pos} (hmark : s.ru.records[p].triggered = true)
    (hstate : s.ru.records[p].state = .pending) (hdeadline : s.ru.records[p].deadline = none) :
    s.takeTrigger p = s.moveToStage1 p := by
  rw [State.takeTrigger, if_pos]
  rw [hmark, Bool.true_and, awaitsTrigger_iff]
  exact ⟨hstate, hdeadline⟩

theorem takeExpiry_stage1 {s : State} {p : Pos} (hmark : s.ru.records[p].expiring = true)
    (hstate : s.ru.records[p].state = .stage1) : s.takeExpiry p = s.moveToStage2 p := by
  rw [State.takeExpiry, if_pos hmark, State.expireStage, hstate]

theorem takeExpiry_stage2 {s : State} {p : Pos} (hmark : s.ru.records[p].expiring = true)
    (hstate : s.ru.records[p].state = .stage2) : s.takeExpiry p = s.putRecord p .toExpired := by
  rw [State.takeExpiry, if_pos hmark, State.expireStage, hstate]

/-- Settles O11: the command occurs with the mark, and hands the new record on. -/
theorem triggerMovesToStageOne : Obligations.TriggerMovesToStageOne := by
  intro s p hs hmark hstate hdeadline
  have hnew : (ReminderRecord.toStage1 ((s.profileOf p).stage1 * 10) s.tb.time).state ≠ s.ru.records[p].state := by
    rw [hstate]
    exact nofun
  obtain ⟨honly, hru, hcopies, hbelt⟩ := putRecord_hands hnew
  obtain ⟨-, hsupp, hoverrides, -⟩ := putRecord_does s p (.toStage1 ((s.profileOf p).stage1 * 10) s.tb.time)
  refine ⟨s.moveToStage1 p, ?_, honly, hru, hcopies, hoverrides, hsupp, hbelt⟩
  rw [← takeTrigger_marked hmark hstate hdeadline]
  exact occurs_due hs hmark

/-- Settles O12: the command occurs with the mark, and hands the record of the next stage on. -/
theorem stageExpiryMovesOn : Obligations.StageExpiryMovesOn := by
  intro s p hs hmark
  have hexec : exec (.stageExpiry p) s = .next (s.takeExpiry p) := occurs_due hs hmark
  refine ⟨fun hstate => ⟨_, hexec, ?_⟩, fun hstate => ⟨_, hexec, ?_⟩⟩
  · rw [takeExpiry_stage1 hmark hstate]
    exact putRecord_hands (r := .toStage2 _ _) (by rw [hstate]; exact nofun)
  · rw [takeExpiry_stage2 hmark hstate]
    exact putRecord_hands (r := .toExpired) (by rw [hstate]; exact nofun)

end Sys2Proof.Machine
end

section
/-! POWER_MODE_FRAME, and a committed class that CL hands RU (R107, R108, R111, R112, R116 to R119, R138). -/

namespace Sys2Proof.Machine

/-! ## The frame -/

theorem inputByte_of_frame {v : VehiclePort} {i : VehicleInput} {f : CanFrame} {b : Byte} (hactive : v.busOff = false)
    (hident : f.ident = i.ident) (hbyte : f.data[i.byteIndex.val]? = some b) : v.inputByte i f = some b := by
  simp [VehiclePort.inputByte, hactive, hident, hbyte]

/-- A frame on neither request identifier is no request (R136, R137). -/
theorem takeRequest_other {s : State} {f : CanFrame} (h0 : f.ident ≠ s.vp.base) (h1 : f.ident ≠ s.vp.base + 1) :
    s.takeRequest f = s := by
  have hlevel : s.vp.requestLevel f = none := by
    rw [VehiclePort.requestLevel, if_neg h0, if_neg h1, ite_self]
  simp [State.takeRequest, hlevel]

/-- The low two bits of the byte are the power mode (R138). -/
theorem powerModeOf_iff (b : Byte) :
    (powerModeOf b = .off ↔ b.toNat % 4 = 0) ∧ (powerModeOf b = .accessory ↔ b.toNat % 4 = 1) ∧
    (powerModeOf b = .run ↔ b.toNat % 4 = 2) := by
  unfold powerModeOf
  split <;> simp_all

theorem ignition_iff (m : PowerMode) : m.ignition = true ↔ m = .run ∨ m = .crank := by
  cases m <;> simp [PowerMode.ignition]

/-! ## The power mode -/

/-- The part with another power mode, its ignition not yet handed on. -/
def State.powered (s : State) (m : PowerMode) : State := s.putPort { s.vp with powerMode := m }

theorem takePowerMode_same {s : State} {m : PowerMode} (h : m.ignition = s.ignitionOn) : s.takePowerMode m = s.powered m := by
  unfold State.takePowerMode
  exact if_pos h.symm

theorem takePowerMode_on {s : State} {m : PowerMode} (hon : m.ignition = true) (hwas : s.ignitionOn = false) :
    s.takePowerMode m = (s.powered m).ignitionComesOn := by
  simp [State.takePowerMode, hon, hwas, State.powered]

theorem takePowerMode_off {s : State} {m : PowerMode} (hoff : m.ignition = false) (hwas : s.ignitionOn = true) :
    s.takePowerMode m = (s.powered m).ignitionGoesOff := by
  simp [State.takePowerMode, hoff, hwas, State.powered]

/-- Beside the power mode, a change of ignition changes RU's records, OU, and VP's belt content (R107, R122). -/
theorem poweredReminders {s t : State} {m : PowerMode} {ru : ReminderUnit} (h : OnlyReminders { s.powered m with ru := ru } t) :
    t = { s with ru := t.ru, ou := t.ou, vp := { s.vp with powerMode := m, belt := t.vp.belt } } ∧
    t.ru = { ru with records := t.ru.records } := by
  unfold OnlyReminders at h
  constructor
  · rw [h]
    rfl
  · rw [h]

/-- The ignition goes off: the counter is cleared and every reminder is closed (R108, R117). -/
theorem takePowerMode_off_does {s : State} {m : PowerMode} (hoff : m.ignition = false) (hwas : s.ignitionOn = true) :
    OnlyReminders { s.powered m with ru := { s.ru with ignitionCount := 0 } } (s.takePowerMode m) ∧
    ∀ p : Pos, (s.takePowerMode m).ru.records[p] = .toInactive := by
  rw [takePowerMode_off hoff hwas]
  exact ignitionGoesOff_does _

/-- The ignition comes on: its time is written, and the applicable reminders open (R108, R111). -/
theorem takePowerMode_on_does {s : State} {m : PowerMode} (hon : m.ignition = true) (hwas : s.ignitionOn = false) :
    OnlyReminders { s.powered m with ru := { s.ru with ignitionTime := s.tb.time } } (s.takePowerMode m) ∧
    ∀ p : Pos, (s.takePowerMode m).ru.records[p] =
      if s.ru.records[p].state = .inactive ∧ (s.powered m).applicable p s.cl[p].committed = true then (s.powered m).opened p
      else s.ru.records[p] := by
  rw [takePowerMode_on hon hwas]
  exact ignitionComesOn_does _

theorem takePowerMode_does (s : State) (m : PowerMode) :
    s.takePowerMode m = { s with
      ru := (s.takePowerMode m).ru, ou := (s.takePowerMode m).ou
      vp := { s.vp with powerMode := m, belt := (s.takePowerMode m).vp.belt } } ∧
    (s.takePowerMode m).ru.buckles = s.ru.buckles := by
  by_cases hsame : m.ignition = s.ignitionOn
  · rw [takePowerMode_same hsame]
    exact ⟨rfl, rfl⟩
  · cases hm : m.ignition with
    | true =>
      obtain ⟨hdoes, hru⟩ := poweredReminders (takePowerMode_on_does hm (by simpa [hm] using hsame)).1
      exact ⟨hdoes, by rw [hru]⟩
    | false =>
      obtain ⟨hdoes, hru⟩ := poweredReminders (takePowerMode_off_does hm (by simpa [hm] using hsame)).1
      exact ⟨hdoes, by rw [hru]⟩

theorem mayApply_iff {s : State} {p : Pos} : s.mayApply p = true ↔
    (s.entry p).station.isSome = true ∧ (s.entry p).applicable = true ∧ s.mode ≠ .config ∧ s.ignitionOn = true := by
  simp only [State.mayApply, State.fitted, Bool.and_eq_true, bne_iff_ne, and_assoc]

/-- R109's conditions of applicability. -/
theorem applicable_iff {s : State} {p : Pos} {c : Cls} : s.applicable p c = true ↔
    s.mode ≠ .config ∧ s.ignitionOn = true ∧ (s.entry p).station.isSome = true ∧ (s.entry p).applicable = true ∧
      c.person (s.entry p).childCheck = true := by
  rw [State.applicable, Bool.and_eq_true, mayApply_iff]
  tauto

/-! ## A committed class -/

/-- A class handed to RU moves its position's reminder, and nothing else but what that hands on (R111, R117 to R119). -/
theorem onlyReminders_reminderClass (s : State) (p : Pos) (old new : Cls) : OnlyReminders s (s.reminderClass p old new) :=
  reminderClass_induction (fun _ p r hu => hu.putRecord p r) (.refl s) p old new

section
variable {s : State} {p : Pos} {old new : Cls}

/-- A class of UNKNOWN suspends an escalation and closes a reminder in BUCKLED (R118). -/
theorem recordAfterClass_unknown :
    ((s.ru.records[p].state.Escalating → s.recordAfterClass p old .unknown = s.ru.records[p].toSuspended) ∧
    (s.ru.records[p].state = .buckled → s.recordAfterClass p old .unknown = .toInactive) ∧
    (s.ru.records[p].state = .inactive ∨ s.ru.records[p].state = .suspended →
      s.recordAfterClass p old .unknown = s.ru.records[p])) := by
  unfold State.recordAfterClass
  dsimp only
  rw [if_pos rfl]
  cases hstate : s.ru.records[p].state <;> simp [Reminder.Escalating]

/-- A class that counts as no person closes the reminder (R117). -/
theorem recordAfterClass_noPerson (hnew : new ≠ .unknown) (hperson : new.person (s.entry p).childCheck = false) :
    s.recordAfterClass p old new = .toInactive := by
  simp [State.recordAfterClass, hnew, hperson]

variable (hnew : new ≠ .unknown) (hperson : new.person (s.entry p).childCheck = true)
include hnew hperson

/-- A person class resumes a suspended reminder, unless the belt is latched (R119). -/
theorem recordAfterClass_suspended (hstate : s.ru.records[p].state = .suspended) :
    s.recordAfterClass p old new =
      if s.latched p then .toBuckled else s.pendingEntered p (s.ru.records[p].resumed s.tb.time) := by
  unfold State.recordAfterClass
  dsimp only
  rw [if_neg hnew, if_pos hperson, if_pos hstate]

/-- A person class opens an INACTIVE reminder that becomes applicable with it (R111). -/
theorem recordAfterClass_opens (hstate : s.ru.records[p].state = .inactive) (hold : old.person (s.entry p).childCheck = false)
    (hmay : s.mayApply p = true) : s.recordAfterClass p old new = s.opened p := by
  unfold State.recordAfterClass State.opened
  dsimp only
  rw [if_neg hnew, if_pos hperson, if_neg (by rw [hstate]; exact nofun), if_pos ⟨hstate, hold, hmay⟩]

theorem recordAfterClass_stands (hstate : s.ru.records[p].state ≠ .suspended)
    (hshut : ¬ (s.ru.records[p].state = .inactive ∧ old.person (s.entry p).childCheck = false ∧ s.mayApply p = true)) :
    s.recordAfterClass p old new = s.ru.records[p] := by
  unfold State.recordAfterClass
  dsimp only
  rw [if_neg hnew, if_pos hperson, if_neg hstate, if_neg hshut]

end

/-- A resumed reminder stands in the stage that it remembers, or meets the tests of PENDING (R119). -/
theorem resumed_tested (s : State) (p : Pos) {r u : ReminderRecord} (hu : u = s.pendingEntered p (r.resumed s.tb.time)) :
    (r.remembered = some .stage1 → u = { r with state := .stage1, remembered := none, entryTime := s.tb.time }) ∧
    (r.remembered = some .stage2 → u = { r with state := .stage2, remembered := none, entryTime := s.tb.time }) ∧
    (r.remembered = some .expired → u = { r with state := .expired, remembered := none }) ∧
    (r.remembered = some .pending → ReminderRecord.PendingTested { r with state := .pending, remembered := none } u
      (s.profileOf p) s.speedReading s.ru.ignitionCount s.tb.time) := by
  subst hu
  unfold ReminderRecord.resumed
  refine ⟨fun h => ?_, fun h => ?_, fun h => ?_, fun h => ?_⟩ <;> rw [h]
  · exact pendingEntered_of_not_pending nofun
  · exact pendingEntered_of_not_pending nofun
  · exact pendingEntered_of_not_pending nofun
  · exact pendingTested_pendingEntered s p rfl

/-- Settles O14: the frame hands its byte on, the power mode its ignition, and a class moves the record that `recordAfterClass` says. -/
theorem powerModeFrameSwitchesTheIgnition : Obligations.PowerModeFrameSwitchesTheIgnition := by
  refine ⟨fun s f b hs hactive hident hbyte => ⟨?_, takeRequest_other, powerModeOf_iff b⟩, fun s m => ?_, fun s p old new => ?_⟩
  · have hinput := inputByte_of_frame hactive hident hbyte
    have hexec : exec (.powerModeFrame f) s = .next (s.receive f) := occurs_due hs (by simp [hinput])
    rw [hexec, State.receive, State.thenInputs, hinput]
    rfl
  · obtain ⟨hdoes, hbuckles⟩ := takePowerMode_does s m
    refine ⟨hdoes, hbuckles, ignition_iff m, takePowerMode_same, fun hoff hwas => ?_, fun hon hwas => ?_⟩
    · obtain ⟨honly, hrecords⟩ := takePowerMode_off_does hoff hwas
      obtain ⟨-, hru⟩ := poweredReminders honly
      exact ⟨by rw [hru], by rw [hru], hrecords⟩
    · obtain ⟨honly, hrecords⟩ := takePowerMode_on_does hon hwas
      obtain ⟨-, hru⟩ := poweredReminders honly
      refine ⟨by rw [hru], by rw [hru], fun p => ?_⟩
      have hopens : (s.powered m).applicable p s.cl[p].committed = true ↔ s.mode ≠ .config ∧ (s.entry p).station.isSome = true ∧
          (s.entry p).applicable = true ∧ s.cl[p].committed.person (s.entry p).childCheck = true :=
        applicable_iff.trans (and_congr_right fun _ => and_iff_right hon)
      rw [hrecords]
      refine ⟨fun ⟨hinactive, h⟩ => ?_, fun hshut => if_neg fun ⟨hinactive, h⟩ => hshut ⟨hinactive, hopens.mp h⟩⟩
      rw [if_pos ⟨hinactive, hopens.mpr h⟩]
      exact opened_becomesApplicable (s.powered m) p
  · have hrecord : (s.reminderClass p old new).ru = s.ru.put p (s.recordAfterClass p old new) := reminderClass_ru ..
    intro r t u check escalating
    have hu : u = s.recordAfterClass p old new := by
      change t.ru.records[p] = _
      rw [hrecord, ReminderUnit.put_record]
    refine ⟨onlyReminders_reminderClass s p old new, fun q hq => ?_, ?_, ?_, fun hnew hperson => ⟨?_, ?_, ?_⟩⟩
    · change t.ru.records[q] = _
      rw [hrecord, ReminderUnit.put, set_getElem_fin, if_neg hq]
    · rintro rfl
      rw [hu]
      exact recordAfterClass_unknown
    · intro hnew hperson
      rw [hu]
      exact recordAfterClass_noPerson hnew hperson
    · intro hstate hlatched
      rw [hu, recordAfterClass_suspended hnew hperson hstate, if_pos (latched_iff.mpr hlatched)]
      rfl
    · intro hstate hlatched
      rw [hu, recordAfterClass_suspended hnew hperson hstate, if_neg (mt latched_iff.mp hlatched)]
      exact resumed_tested s p rfl
    · intro hstate opens
      rw [hu]
      refine ⟨fun ⟨hinactive, hold, hfitted, happlicable, hmode, hon⟩ => ?_, fun hshut => ?_⟩
      · rw [recordAfterClass_opens hnew hperson hinactive hold (mayApply_iff.mpr ⟨hfitted, happlicable, hmode, hon⟩)]
        exact opened_becomesApplicable s p
      · refine recordAfterClass_stands hnew hperson hstate fun ⟨hinactive, hold, hmay⟩ => hshut ?_
        exact ⟨hinactive, hold, mayApply_iff.mp hmay⟩

end Sys2Proof.Machine
end

section
/-! A buckle reading: the confirmed change, its capture, and the reminder that it moves (R104, R105, R112, R114 to R116). -/

namespace Sys2Proof.Machine

/-! ## Storing the buckle fields -/

/-- Buckle fields with the confirmed state that stands are told to no block (R122). -/
theorem putBuckle_same {s : State} {p : Pos} {b : Buckle} (h : b.confirmed = s.ru.buckles[p].confirmed) :
    s.putBuckle p b = { s with ru := { s.ru with buckles := s.ru.buckles.set p b } } := by
  rw [State.putBuckle, if_pos h]

/-- Stored buckle fields go to VP in the belt content, and move no reminder (R122). -/
theorem putBuckle_only (s : State) (p : Pos) (b : Buckle) :
    s.putBuckle p b = { s with
      ru := { s.ru with buckles := s.ru.buckles.set p b }, vp := { s.vp with belt := (s.putBuckle p b).vp.belt } } := by
  unfold State.putBuckle
  dsimp only
  split <;> rfl

/-- Reminders that move once the buckle fields are stored: what has changed by then. -/
theorem OnlyReminders.of_putBuckle {s t : State} {p : Pos} {b : Buckle} (h : OnlyReminders (s.putBuckle p b) t) :
    t = { s with ru := t.ru, ou := t.ou, vp := { s.vp with belt := t.vp.belt } } ∧
    t.ru.buckles = s.ru.buckles.set p b := by
  have hput := putBuckle_only s p b
  generalize s.putBuckle p b = u at h hput
  unfold OnlyReminders at h
  constructor
  · rw [h, hput]
  · rw [h, hput]

/-! ## The moves of a confirmed change -/

/-- A latch ends an escalation (R114). -/
theorem latch_escalating {s : State} {p : Pos} (h : s.ru.records[p].state.Escalating) : s.latch p = s.putRecord p .toBuckled := by
  unfold State.latch
  rcases h with h | h | h | h <;> dsimp only <;> rw [h]

theorem latch_stands {s : State} {p : Pos} (h : s.ru.records[p].state = .buckled ∨ s.ru.records[p].state = .inactive ∨
    s.ru.records[p].state = .suspended) : s.latch p = s := by
  unfold State.latch
  rcases h with h | h | h <;> dsimp only <;> rw [h]

/-- An unbuckle moves a reminder in BUCKLED alone (R115). -/
theorem unlatch_stands {s : State} {p : Pos} (h : s.ru.records[p].state ≠ .buckled) : s.unlatch p = s := if_neg h

/-- The deadline that R115 gives the record that an unbuckle puts in PENDING. -/
def State.graceDeadline (s : State) (p : Pos) : Option Time :=
  if (s.profileOf p).retrigger ∧ (s.profileOf p).speedOn ≤ s.ru.buckles[p].captureSpeed.toNat then
    some (s.ru.buckles[p].captureTime + BitVec.ofNat 32 ((s.profileOf p).grace * 100))
  else none

theorem unlatch_buckled {s : State} {p : Pos} (h : s.ru.records[p].state = .buckled) :
    s.unlatch p = s.enterPending p (.toPending (s.graceDeadline p)) := by
  unfold State.unlatch State.graceDeadline
  simp only [h, if_true, Bool.and_eq_true, decide_eq_true_eq]
  split <;> rfl

/-- The moves that a confirmed change to `x` makes, in the part that holds it already (R114, R115). -/
def State.changeMoves (s : State) (p : Pos) (x : Reading) (wasLatched : Bool) : State :=
  if x = .latched then s.latch p else if wasLatched then s.unlatch p else s

/-- A confirmed change moves its position's reminder alone. -/
theorem changeMoves_does (s : State) (p : Pos) (x : Reading) (wasLatched : Bool) :
    OnlyReminders s (s.changeMoves p x wasLatched) ∧ ∃ r, (s.changeMoves p x wasLatched).ru = s.ru.put p r := by
  have hstands : OnlyReminders s s ∧ ∃ r, s.ru = s.ru.put p r := ⟨.refl s, _, (s.ru.put_same p).symm⟩
  unfold State.changeMoves
  split
  · unfold State.latch
    dsimp only
    split
    case h_5 | h_6 | h_7 => exact hstands
    all_goals exact ⟨onlyReminders_putRecord .., _, putRecord_ru ..⟩
  · split
    · by_cases hstate : s.ru.records[p].state = .buckled
      · rw [unlatch_buckled hstate]
        exact ⟨enterPending_induction (fun _ q r h => h.putRecord q r) (.refl s) p _, _, enterPending_ru ..⟩
      · rwa [unlatch_stands hstate]
    · exact hstands

/-- A reading that confirms nothing is noted (R104). -/
theorem buckleReading_noted {s : State} {p : Pos} {x : Reading}
    (h : s.ru.buckles[p].last ≠ some x ∨ s.ru.buckles[p].confirmed = some x) :
    s.buckleReading p x = s.putBuckle p { s.ru.buckles[p] with last := some x } := by
  unfold State.buckleReading
  dsimp only
  exact if_neg fun ⟨hlast, hconfirmed⟩ => h.elim (· hlast) hconfirmed

/-- The second of two equal readings confirms a change (R104, R105). -/
theorem buckleReading_confirms {s : State} {p : Pos} {x : Reading} (hlast : s.ru.buckles[p].last = some x)
    (hconfirmed : s.ru.buckles[p].confirmed ≠ some x) :
    s.buckleReading p x =
      (s.putBuckle p (s.capture x)).changeMoves p x (s.ru.buckles[p].confirmed == some .latched) := by
  unfold State.buckleReading State.changeMoves
  dsimp only
  rw [if_pos ⟨hlast, hconfirmed⟩]
  simp only [beq_iff_eq]

/-! ## The grace deadline -/

/-- A deadline that lies up to 255 times 100 ms ahead is reached at once only if it lies no time ahead (R116). -/
theorem reached_ahead (now : Time) {grace : Nat} (h : grace ≤ 255) :
    (now - (now + BitVec.ofNat 32 (grace * 100))).toNat < 2 ^ 31 ↔ grace = 0 := by
  have hback : now - (now + BitVec.ofNat 32 (grace * 100)) = - BitVec.ofNat 32 (grace * 100) := by bv_omega
  have hsmall : grace * 100 % 2 ^ 32 = grace * 100 := Nat.mod_eq_of_lt (by omega)
  rw [hback, BitVec.toNat_neg, BitVec.toNat_ofNat, hsmall]
  by_cases hzero : grace = 0
  · simp [hzero]
  · rw [Nat.mod_eq_of_lt (by omega)]
    omega

/-- What an unbuckle from BUCKLED goes to, in a part whose capture is the present moment (R115, R116). -/
theorem pendingEntered_grace {s : State} {p : Pos} (htime : s.ru.buckles[p].captureTime = s.tb.time)
    (hspeed : s.ru.buckles[p].captureSpeed = s.speedReading) :
    let f := s.profileOf p
    let u := s.pendingEntered p (.toPending (s.graceDeadline p))
    (f.retrigger = true → f.speedOn ≤ s.speedReading.toNat → f.grace = 0 →
      u = .toStage2 (f.stage2Max * 10) s.tb.time) ∧
    (f.retrigger = true → f.speedOn ≤ s.speedReading.toNat → 1 ≤ f.grace → f.grace ≤ 255 →
      u = .toPending (some (s.tb.time + BitVec.ofNat 32 (f.grace * 100)))) ∧
    (f.retrigger = false ∨ s.speedReading.toNat < f.speedOn →
      ReminderRecord.PendingTested { state := .pending } u f s.speedReading s.ru.ignitionCount s.tb.time) := by
  intro f u
  have htested : ReminderRecord.PendingTested (.toPending (s.graceDeadline p)) u f s.speedReading s.ru.ignitionCount s.tb.time :=
    pendingTested_pendingEntered s p rfl
  have hset (hretrigger : f.retrigger = true) (hfast : f.speedOn ≤ s.speedReading.toNat) :
      s.graceDeadline p = some (s.tb.time + BitVec.ofNat 32 (f.grace * 100)) := by
    rw [State.graceDeadline, htime, hspeed, if_pos ⟨hretrigger, hfast⟩]
  refine ⟨fun hretrigger hfast hzero => ?_, fun hretrigger hfast hlow hhigh => ?_, fun hnone => ?_⟩
  · rw [hset hretrigger hfast] at htested
    obtain ⟨hreached, -⟩ := htested
    exact hreached ((reached_ahead _ (by omega)).mpr hzero)
  · rw [hset hretrigger hfast] at htested
    obtain ⟨-, hahead⟩ := htested
    refine hahead (Nat.not_lt.mp fun hreached => ?_)
    have := (reached_ahead _ hhigh).mp hreached
    omega
  · have hunset : s.graceDeadline p = none := by
      rw [State.graceDeadline, hspeed]
      refine if_neg fun ⟨hretrigger, hfast⟩ => ?_
      rcases hnone with hoff | hslow
      · exact Bool.false_ne_true (hoff.symm.trans hretrigger)
      · exact absurd hfast (Nat.not_le.mpr hslow)
    rwa [hunset] at htested

/-- Settles O15: a noted reading stores its buckle fields, and a confirmed change stores its capture and then moves the reminder. -/
theorem secondEqualBuckleReadingConfirms : Obligations.SecondEqualBuckleReadingConfirms := by
  intro s p x b r f t
  refine ⟨fun hnoted => ?_, fun hlast hconfirmed => ?_⟩
  · exact (buckleReading_noted hnoted).trans (putBuckle_same rfl)
  have ht : t = (s.putBuckle p (s.capture x)).changeMoves p x (b.confirmed == some .latched) :=
    buckleReading_confirms hlast hconfirmed
  have hv := putBuckle_only s p (s.capture x)
  obtain ⟨hmoves, record, hru⟩ := changeMoves_does (s.putBuckle p (s.capture x)) p x (b.confirmed == some .latched)
  rw [← ht] at hmoves hru
  obtain ⟨hdoes, hbuckles⟩ := hmoves.of_putBuckle
  generalize s.putBuckle p (s.capture x) = v at ht hv hmoves hru
  have hrecords : v.ru.records = s.ru.records := by rw [hv]
  have hou : v.ou = s.ou := by rw [hv]
  have hstands (h : t = v) : t.ru.records = s.ru.records ∧ t.ou = s.ou := by
    rw [h]
    exact ⟨hrecords, hou⟩
  have hstate : v.ru.records[p].state = r.state := by rw [hrecords]
  refine ⟨hdoes, hbuckles, fun q hq => ?_, fun hx hescalating => ?_, fun hx hother => ?_, fun hx hother => ?_,
    fun hx hwas hbuckled => ?_⟩
  · rw [hru, ReminderUnit.put, set_getElem_fin, if_neg hq, hrecords]
  · rw [ht, State.changeMoves, if_pos hx, latch_escalating (by rw [hstate]; exact hescalating), putRecord_record, if_pos rfl]
    rfl
  · refine hstands ?_
    rw [ht, State.changeMoves, if_pos hx, latch_stands (by rw [hstate]; exact hother)]
  · refine hstands ?_
    rw [ht, State.changeMoves, if_neg hx]
    rcases hother with hwas | hstate'
    · rw [if_neg (by simpa using hwas)]
    · rw [unlatch_stands (by rw [hstate]; exact hstate'), ite_self]
  · have hu : t.ru.records[p] = v.pendingEntered p (.toPending (v.graceDeadline p)) := by
      rw [ht, State.changeMoves, if_neg hx, if_pos (by simp [hwas]), unlatch_buckled (hstate.trans hbuckled), enterPending_ru,
        ReminderUnit.put_record]
    rw [hu]
    have hcapture : v.ru.buckles[p] = s.capture x := by rw [hv]; simp
    obtain ⟨hprofile, hspeed, hcount, htime⟩ : v.profileOf p = f ∧ v.speedReading = s.speedReading ∧
        v.ru.ignitionCount = s.ru.ignitionCount ∧ v.tb = s.tb := by
      rw [hv]
      exact ⟨rfl, rfl, rfl, rfl⟩
    have hgrace := pendingEntered_grace (s := v) (p := p) (by rw [hcapture, htime]; rfl) (by rw [hcapture, hspeed]; rfl)
    rwa [hprofile, hspeed, hcount, htime] at hgrace

end Sys2Proof.Machine
end

section
/-! SPEED_FRAME and SPEED_STALE: a speed change reaches the trigger tests (R107, R112, R138, R139). -/

namespace Sys2Proof.Machine

/-- What a speed change to the reading `b` makes of RU, from `s` to `t`: no record changes but in its mark, which is set where the
trigger holds at `b`, if `changes` says that the change reaches RU (R112). -/
def SpeedMarked (s t : State) (b : Byte) (changes : Prop) : Prop :=
  t.ru = { s.ru with records := t.ru.records } ∧
  ∀ p : Pos, t.ru.records[p] = { s.ru.records[p] with triggered := t.ru.records[p].triggered } ∧
    (t.ru.records[p].triggered = true ↔ s.ru.records[p].triggered = true ∨
      changes ∧ s.ru.records[p].state = .pending ∧ s.ru.records[p].deadline = none ∧
        triggerAt (s.profileOf p) b s.ru.ignitionCount)

theorem speedMarked_of_ru {s t : State} {b : Byte} {changes : Prop} (hru : t.ru = s.ru) (h : ¬ changes) : SpeedMarked s t b changes := by
  unfold SpeedMarked
  rw [hru]
  exact ⟨rfl, fun p => ⟨rfl, (or_iff_left fun hchanges => h hchanges.1).symm⟩⟩

/-- In RUN a speed change marks the positions whose trigger holds at the speed that is read now (R107, R112). -/
theorem speedMarked_speedChange (s : State) : SpeedMarked s s.speedChange s.speedReading (s.mode = .run) := by
  unfold State.speedChange
  split
  next hrun =>
    refine ⟨rfl, fun p => ?_⟩
    have hholds : s.markTriggers.triggerHolds p = true ↔ triggerAt (s.profileOf p) s.speedReading s.ru.ignitionCount :=
      triggerHolds_iff
    rw [markTriggers_does, tested_does]
    refine ⟨rfl, ?_⟩
    rw [Bool.or_eq_true, Bool.and_eq_true, awaitsTrigger_iff, hholds, and_assoc, and_iff_right hrun]
  next hother => exact speedMarked_of_ru rfl hother

/-- Nothing but RU changes. -/
theorem speedChange_only (s : State) : s.speedChange = { s with ru := s.speedChange.ru } := by
  unfold State.speedChange
  split <;> rfl

/-! ## The speed input -/

theorem speedReading_fresh {s : State} (h : s.vp.staleness = 0) : s.speedReading = s.vp.speed := by simp [State.speedReading, h]

theorem speedReading_stale {s : State} (h : s.vp.staleness = 1000) : s.speedReading = 255 := by simp [State.speedReading, h]

/-- A speed that has gone stale is handed on before the byte of a frame (R139, log entry 23). -/
theorem takeSpeed_stale {s : State} (b : Byte) (h : s.vp.staleDue = true) : s.takeSpeed b = s.handStale.takeSpeed b := by
  have hfresh : s.handStale.vp.staleDue = false := by simp [State.handStale]
  have hreading : s.handStale.speedReading = s.speedReading := by simp [State.handStale, State.speedReading]
  simp only [State.takeSpeed, h, hfresh, hreading, if_true, Bool.false_eq_true, if_false]

/-- The part that has taken the byte of a speed frame, the change not yet handed to RU (R138). -/
def State.speedStored (s : State) (b : Byte) : State := s.putPort { s.vp with speed := b, staleness := 0 }

theorem takeSpeed_fresh {s : State} (b : Byte) (h : s.vp.staleDue = false) :
    s.takeSpeed b = if s.speedReading = b then s.speedStored b else (s.speedStored b).speedChange := by
  simp [State.takeSpeed, h, State.speedStored]

/-- A speed frame stores its byte, and in RUN a changed reading marks (R107, R112, R138). -/
theorem takeSpeed_marks {s : State} (b : Byte) (h : s.vp.staleDue = false) :
    s.takeSpeed b = { s with vp := { s.vp with speed := b, staleness := 0 }, ru := (s.takeSpeed b).ru } ∧
    SpeedMarked s (s.takeSpeed b) b (s.mode = .run ∧ s.speedReading ≠ b) := by
  rw [takeSpeed_fresh b h]
  split
  next hsame => exact ⟨rfl, speedMarked_of_ru rfl fun hchanges => hchanges.2 hsame⟩
  next hchange =>
    have hmarked := speedMarked_speedChange (s.speedStored b)
    rw [speedReading_fresh rfl] at hmarked
    have hchanges : (s.mode = .run ∧ s.speedReading ≠ b) = (s.mode = .run) := propext (and_iff_left hchange)
    rw [hchanges]
    exact ⟨speedChange_only _, hmarked⟩

/-- Settles O35: the frame hands its byte on, and a changed reading marks as R112 says. -/
theorem speedChangesReachTheTriggers : Obligations.SpeedChangesReachTheTriggers := by
  refine ⟨fun s f b hs hactive hident hbyte => ⟨?_, takeRequest_other⟩, fun s b => ⟨takeSpeed_stale b, fun hfresh => ?_⟩,
    fun s hdue hstale => ⟨fun hs => occurs_due hs hdue, ?_⟩⟩
  · have hinput := inputByte_of_frame hactive hident hbyte
    have hexec : exec (.speedFrame f) s = .next (s.receive f) := occurs_due hs (by simp [hinput])
    rw [hexec, State.receive, State.thenInputs, hinput]
    cases s.vp.inputByte s.tables.powerInput f <;> rfl
  · obtain ⟨honly, hmarked⟩ := takeSpeed_marks b hfresh
    refine ⟨honly, ?_, ?_⟩
    · exact (speedReading_fresh (by rw [honly])).trans (by rw [honly])
    · simpa only [SpeedMarked, and_assoc] using hmarked
  · have hmarked := speedMarked_speedChange (s.putPort { s.vp with staleDue := false })
    rw [speedReading_stale (by exact hstale)] at hmarked
    have honly := speedChange_only (s.putPort { s.vp with staleDue := false })
    refine ⟨honly, ?_, hmarked⟩
    have hvp : s.handStale.vp = { s.vp with staleDue := false } := by simp [State.handStale]
    exact speedReading_stale (by rw [hvp]; exact hstale)

end Sys2Proof.Machine
end

section
/-! SET_MODE_HOLD and HOLD_SETTLED: the entry to HOLD and its answer (R131, R144, R164, R168, R174). -/

namespace Sys2Proof.Machine

/-! ## The entry to HOLD -/

/-- R131, R168, R174: the entry to HOLD, from `s` to `t`, MU's request and the change in progress apart. -/
def HoldEntered (s t : State) : Prop :=
  t = { s with
    mode := .hold, change := t.change, tb := { s.tb with slotStarts := 0, ticks10 := [], ticks100 := [] }
    ou := { s.ou with held := t.ou.held }, vp := t.vp, mu := t.mu } ∧
  (∀ g : Fin 6, t.ou.held[g] = s.lampLine g) ∧ EventGoesOut s t .modeChanged 0 2 0 ∧
  t.vp = { s.vp with eventSlot := t.vp.eventSlot, eventQueue := t.vp.eventQueue }

/-- Each lamp line's level is held (R131). -/
theorem holdLamps_held (s : State) (g : Fin 6) : s.holdLamps.ou.held[g] = s.lampLine g :=
  Vector.getElem_ofFn g.isLt

/-- MU's request and the change in progress are apart from the entry to HOLD. -/
theorem holdEntered_enterHold (s : State) (change : Change) (mu : ManagementUnit) :
    HoldEntered s { s.enterHold with change, mu } :=
  ⟨rfl, holdLamps_held s, VehiclePort.enqueue_taken .., VehiclePort.enqueue_does ..⟩

theorem nothingInFlight_iff (s : State) : s.nothingInFlight = true ↔ s.lc.poll = none ∧ s.we = none := by
  simp [State.nothingInFlight, State.lineIdle, State.weIdle]

/-! ## SET_MODE with a mode byte of HOLD -/

/-- A SET_MODE frame under the row that its mode byte names, or under any row with a byte of 3 to 255, is served (R150, R151, log
entry 8). -/
theorem exec_setMode {s : State} {rec : RequestRecord} {c : Instr} (hserves : s.serves) (hkind : rec.ofKind 4)
    (hc : c ∈ [Instr.setModeRun, .setModeHold, .setModeConfig].map (requestFrame s.vp.base rec).under) (hwf : c.wf = true) :
    exec c s = .next (s.thenInputs (requestFrame s.vp.base rec)
      ((s.serveSetMode rec).1.serving rec (s.serveSetMode rec).2)) := by
  have hserve : s.serve rec = s.serveSetMode rec := by simp only [State.serve, hkind.2.1]
  rw [← hserve]
  simp only [List.map_cons, List.map_nil, List.mem_cons, List.not_mem_nil, or_false] at hc
  rcases hc with rfl | rfl | rfl <;> exact onRequest_served hserves hkind (by decide) hwf

/-- The row SET_MODE_HOLD takes a frame whose mode byte is 2. -/
theorem setModeHold_wf (base : BitVec 11) {rec : RequestRecord} (hkind : rec.ofKind 4) (hid : rec.id = 2) :
    ((requestFrame base rec).under .setModeHold).wf = true := by
  change setsMode (requestFrame base rec).data 2 = true
  have hbyte : byteAt (requestFrame base rec).data 1 = 2 := hid
  simp [setsMode, isKind_requestFrame base hkind, hbyte]

/-- SET_MODE HOLD in each mode (R164, R168). -/
theorem serveSetMode_hold {s : State} {rec : RequestRecord} (hid : rec.id = 2) :
    (s.mode = .hold → s.serveSetMode rec = (s, okay 2)) ∧
    (s.mode = .config → s.serveSetMode rec = (s, refusal .mode)) ∧
    (s.mode = .run → s.serveSetMode rec =
      if s.lc.poll = none ∧ s.we = none then (s.enterHold, okay 2)
      else ({ s.enterHold with change := .holdSettling }, .changing)) := by
  have hnamed : modeOf rec.id = some .hold := by rw [hid]; rfl
  unfold State.serveSetMode
  rw [hnamed]
  refine ⟨fun hmode => ?_, fun hmode => ?_, fun hmode => ?_⟩
  · simp [hmode, Mode.code, wordOf]
  · simp [hmode, State.changeToHold]
  · simp [hmode, State.changeToHold, nothingInFlight_iff]

/-! ## HOLD_SETTLED -/

/-- HOLD_SETTLED answers the change to HOLD once nothing is in flight, and not before (R168, log entry 47). -/
theorem exec_holdSettled {s : State} (hs : s.power = .on) (hchange : s.change = .holdSettling) :
    exec .holdSettled s =
      .next (if s.lc.poll = none ∧ s.we = none then State.finish { s with change := .none } (okay 2) else s) := by
  change execHoldSettled s = _
  simp only [execHoldSettled, occurs, State.running, hs, hchange, beq_self_eq_true, Bool.true_and, nothingInFlight_iff]

/-- Settles O47: the entry to HOLD is one state, and whether anything is in flight decides only between its answer and the wait. -/
theorem setModeHoldHoldsTheLamps : Obligations.SetModeHoldHoldsTheLamps := by
  refine ⟨fun s rec hserves hkind hid => ?_, fun s rec hs hchange hservice => ?_⟩
  · intro f answered
    have hexec := exec_setMode hserves hkind (c := f.under .setModeHold) (by simp [f]) (setModeHold_wf _ hkind hid)
    obtain ⟨hhold, hconfig, hrun⟩ := serveSetMode_hold (s := s) hid
    refine ⟨fun hmode => ?_, fun hmode => ?_, fun hmode => ?_⟩
    · exact hexec.trans (by rw [hhold hmode]; rfl)
    · exact hexec.trans (by rw [hconfig hmode]; rfl)
    · rw [hrun hmode] at hexec
      by_cases hidle : s.lc.poll = none ∧ s.we = none
      · rw [if_pos hidle] at hexec
        obtain ⟨hframe, hheld, hevent, hvp⟩ :=
          holdEntered_enterHold s s.change { s.mu with service := some { req := rec, work := okay 2 } }
        exact ⟨_, hexec, hframe, hheld, hevent, hvp, by rw [if_pos hidle]; exact ⟨rfl, rfl⟩⟩
      · rw [if_neg hidle] at hexec
        obtain ⟨hframe, hheld, hevent, hvp⟩ :=
          holdEntered_enterHold s .holdSettling { s.mu with service := some { req := rec, work := .changing } }
        exact ⟨_, hexec, hframe, hheld, hevent, hvp, by rw [if_neg hidle]; exact ⟨rfl, rfl⟩⟩
  · have hexec := exec_holdSettled hs hchange
    refine ⟨fun hpoll hwe => ?_, fun hbusy => ?_⟩
    · rw [hexec, if_pos ⟨hpoll, hwe⟩]
      simp only [State.finish, hservice, Option.map_some, okay]
    · rw [hexec, if_neg (by tauto)]

end Sys2Proof.Machine
end

section
/-! RESET_N_LOW and POWER_LOSS, and a part without power or in reset (R136, R166, R173). -/

namespace Sys2Proof.Machine

/-! ## A part that does not run -/

/-- Samples bring nothing about at a part that does not run (log entry 3). -/
theorem afterLine_not_running {s : State} (h : s.running = false) (line : Samples) (due : Bool) (f : State → State) :
    afterLine s line due f = .next s := by
  unfold afterLine
  split
  · exact occurs_otherwise (.inl h)
  · rfl

/-- No event of an exchange has its effect at a part that does not run (log entry 3). -/
theorem onLine_not_running {s : State} (h : s.running = false) (line : Samples) (f : State → Poll → LineEvent → Option State) :
    onLine s line f = .next s := by
  unfold onLine
  split
  · rfl
  · split
    · split
      · exact occurs_otherwise (.inl h)
      · rfl
    · rfl

/-- Without power and in reset the commands of power and RESET_N alone act, each at its own moment (R166, R173, log entry 3). -/
theorem exec_not_running {s : State} (h : s.running = false) {c : Instr} (hon : ∀ straps, c ≠ .powerOnReset straps)
    (hrelease : ∀ straps, c = .resetNRelease straps → s.power ≠ .inReset) (hloss : c = .powerLoss → s.power = .off) :
    exec c s = .next s := by
  cases c with
  | powerOnReset straps => exact absurd rfl (hon straps)
  | resetNRelease straps => exact congrArg Host.Outcome.next (if_neg (hrelease straps rfl))
  | powerLoss => exact congrArg Host.Outcome.next (if_pos (hloss rfl))
  | slotStart line | stepAdvance line => exact afterLine_not_running h ..
  | pollSend | lineBusy | pollEnd | noReply | replyReceived | endOfFrameIdle | receptionLimit | replyStartBit | replyByteRead =>
    dsimp only [exec, execPollSend, execLineBusy, execPollEnd, execNoReply, execReplyReceived, execEndOfFrameIdle,
      execReceptionLimit, execReplyStartBit, execReplyByteRead]
    exact onLine_not_running h ..
  | lineLowSample | transmitStart | transmitSuccess | lostArbitration | transmitFailure | responseHandover =>
    dsimp only [exec, execLineLowSample, execTransmitStart, execTransmitSuccess, execLostArbitration, execTransmitFailure,
      execResponseHandover]
    split
    · exact occurs_otherwise (.inl h)
    · rfl
  | evaluationCompletion =>
    dsimp only [exec, execEvaluationCompletion]
    split
    · rfl
    · exact occurs_otherwise (.inl h)
  | _ => exact occurs_otherwise (.inl h)

/-! ## RESET_N_LOW and POWER_LOSS -/

/-- RESET_N_LOW puts every block of a running part at its reset value and keeps the base (R173, log entries 21 and 48). -/
theorem exec_resetNLow {s : State} (hs : s.power = .on) :
    exec .resetNLow s = .next (State.blank .inReset s.vp.base s.pending) :=
  occurs_due hs rfl

/-- POWER_LOSS puts every block of a part with power at its reset value (R166, log entry 7). -/
theorem exec_powerLoss {s : State} (hs : s.power ≠ .off) :
    exec .powerLoss s = .next (State.blank .off s.vp.base s.pending) :=
  congrArg Host.Outcome.next (if_neg hs)

/-- A part held in reset drives all eight lines low (R173). -/
theorem lines_inReset {s : State} (hs : s.power = .inReset) :
    (∀ g : Fin 6, s.lampLine g = false) ∧ s.chimeLine = false ∧ s.suppressLine = false := by
  simp [State.lampLine, State.chimeLine, State.suppressLine, hs]

/-- Settles O4: both leave the reset values behind, and the part then idles until the command that ends it. -/
theorem resetLowAndPowerLossAbandonEverything : Obligations.ResetLowAndPowerLossAbandonEverything := by
  intro s
  refine ⟨fun hs => ?_, fun hs => ?_⟩
  · obtain ⟨hlamps, hchime, hsuppress⟩ := lines_inReset (s := State.blank .inReset s.vp.base s.pending) rfl
    refine ⟨_, exec_resetNLow hs, rfl, rfl, hlamps, hchime, hsuppress, LineController.drive_idle rfl, rfl, fun c hc hloss => ?_⟩
    exact exec_not_running rfl (fun straps => (hc straps).1) (fun straps hrelease => absurd hrelease (hc straps).2)
      fun h => absurd h hloss
  · refine ⟨_, exec_powerLoss hs, rfl, rfl, rfl, rfl, rfl, rfl, fun c hc => ?_⟩
    exact exec_not_running rfl hc (fun _ _ => by simp [State.blank]) fun _ => rfl

end Sys2Proof.Machine
end

section
/-! The Vehicle Port's clocks: VP_MS_TICK, the frames it makes due, and the end of BUS_OFF (R135, R139, R141, R142, R144, R148). -/

namespace Sys2Proof.Machine

/-! ## Reports -/

section
variable {κ : Type} [DecidableEq κ]

/-- The due test of R141 and R142. -/
theorem Report.dueNow_iff (r : Report κ) (period gap : Nat) :
    r.dueNow period gap = true ↔
      r.pending = false ∧ (period ≤ r.elapsed ∨ r.lastSent ≠ some r.content ∧ gap ≤ r.elapsed) := by
  simp [Report.dueNow]

/-- The tick moves the elapsed count and the due mark, and nothing else (R141). -/
theorem Report.tick_eq (r : Report κ) (period gap : Nat) :
    r.tick period gap = { r with elapsed := min (r.elapsed + 1) 2000, due := (r.tick period gap).due } := by
  obtain ⟨hcontent, hsent, helapsed, hpending⟩ := r.tick_does period gap
  generalize r.tick period gap = u at *
  cases u
  simp_all

/-- What the tick makes due, by the elapsed count that it has moved on (R141). -/
theorem Report.tick_due_iff (r : Report κ) (period gap : Nat) :
    (r.tick period gap).due = true ↔ r.due = true ∨ r.pending = false ∧
      (period ≤ (r.tick period gap).elapsed ∨ r.lastSent ≠ some r.content ∧ gap ≤ (r.tick period gap).elapsed) := by
  simp [Report.tick, Report.dueNow_iff]

end

/-! ## VP_MS_TICK -/

/-- Settles O32: each report takes its own tick, and the other counts are those of the port's tick. -/
theorem portTickCountsAndMakesDue : Obligations.PortTickCountsAndMakesDue := by
  intro s hs
  refine ⟨s.putPort (s.vp.tick s.statusPeriod), occurs_due hs rfl, ?_, rfl, ?_, rfl,
    Report.tick_due_iff .., Report.tick_due_iff .., Report.tick_due_iff .., Report.tick_due_iff ..⟩
  · dsimp only [State.putPort, VehiclePort.tick]
    congr 2 <;> exact Report.tick_eq ..
  · simp [VehiclePort.tick, VehiclePort.goesStale]

/-! ## Frames that are due -/

/-- Settles O33, for each of the four marks. -/
theorem dueFramesBecomePending : Obligations.DueFramesBecomePending := by
  intro s hs
  exact ⟨fun hdue => occurs_due hs hdue, fun hdue => occurs_due hs hdue, fun hdue => occurs_due hs hdue,
    fun hdue => occurs_due hs hdue⟩

/-! ## BUS_OFF_RECOVERY -/

/-- Settles O34: the recovery is an event of a port whose BUS_OFF has been ended. -/
theorem busOffEndsAfterTwoHundredMilliseconds : Obligations.BusOffEndsAfterTwoHundredMilliseconds := by
  intro s hs hoff
  refine ⟨fun hcount => ?_, fun hcount => ?_⟩
  · have hdue : (s.vp.busOff && s.vp.busOffCount == 200) = true := by simp [hoff, hcount]
    exact ⟨_, occurs_due hs hdue, queueEvent_does .., VehiclePort.enqueue_taken { s.vp with busOff := false, failures := 0 } _⟩
  · exact occurs_otherwise (.inr (by simp [Nat.ne_of_lt hcount]))

end Sys2Proof.Machine
end

section
/-! The frames that the Vehicle Port sends, and the arbiter that takes them (R136, R140, R143, R147, R176, R177). -/

namespace Sys2Proof.Machine

/-! ## The suppression frame -/

/-- The check byte brings the sum of the eight bytes to 0xFF modulo 256 (R143). -/
theorem checked_sum (b0 b1 b2 b3 b4 b5 b6 : Byte) :
    (([b0, b1, b2, b3, b4, b5, b6, 0xFF - (b0 + b1 + b2 + b3 + b4 + b5 + b6)] : List Byte).map BitVec.toNat).sum % 256 = 0xFF := by
  simp only [List.map_cons, List.map_nil, List.sum_cons, List.sum_nil, BitVec.toNat_sub, BitVec.toNat_add,
    BitVec.ofNat_eq_ofNat, BitVec.toNat_ofNat]
  omega

/-- Settles O37: byte 7 is the check of the other seven. -/
theorem suppressionFrameBytesSumToFF : Obligations.SuppressionFrameBytesSumToFF :=
  fun _ _ => ⟨checked_sum .., rfl⟩

/-- A byte of the frame is that of its position, or 0xFF where there is none (R140). -/
theorem suppByte_eq (e : Option SuppEntry) (f : SuppEntry → Nat) :
    suppByte e f = e.elim (0xFF : Byte) fun x => BitVec.ofNat 8 (f x) := by
  cases e <;> rfl

/-- Bytes 0 to 5 of the frame: index, state and class of positions A and B (R140, R176). -/
theorem suppressionFrame_entries (c : SuppContent) (rolling : Nat) :
    (suppressionFrame c rolling)[0] = suppByte c.a (·.pos.val) ∧ (suppressionFrame c rolling)[1] = suppByte c.a (·.state.code) ∧
    (suppressionFrame c rolling)[2] = suppByte c.b (·.pos.val) ∧ (suppressionFrame c rolling)[3] = suppByte c.b (·.state.code) ∧
    (suppressionFrame c rolling)[4] = suppByte c.a (·.cls.code) ∧ (suppressionFrame c rolling)[5] = suppByte c.b (·.cls.code) :=
  ⟨rfl, rfl, rfl, rfl, rfl, rfl⟩

/-- Byte 7 of the frame: its check (R143). -/
theorem suppressionFrame_check (c : SuppContent) (rolling : Nat) {d : Frame} (h : suppressionFrame c rolling = d) :
    d[7] = 0xFF - (d[0] + d[1] + d[2] + d[3] + d[4] + d[5] + d[6]) := by
  subst h
  rfl

/-! ## The event frame -/

/-- Bytes 4 to 6 of an event frame, low byte first, spell the stamp again (R177). -/
theorem stamp_append (v : BitVec 24) :
    ((v >>> (16 : Nat)).setWidth 8 ++ (v >>> (8 : Nat)).setWidth 8 ++ v.setWidth 8 : BitVec 24) = v := by
  ext i hi
  simp only [BitVec.getElem_append, BitVec.getElem_setWidth, BitVec.getLsbD_ushiftRight]
  split
  · simp [hi]
  · split
    · rw [show 8 + (i - 8) = i by omega]
      simp [hi]
    · rw [show 16 + (i - 8 - 8) = i by omega]
      simp [hi]

/-- Byte 0 of an event frame: the kind code with LOST in bit 7 (R177). -/
theorem eventFrame_kind (r : EventRecord) :
    (eventFrame r)[0] = BitVec.ofNat 8 (r.kind.code + if r.lost = true then 0x80 else 0) := by
  change byteOf (r.kind.code + 128 * flag r.lost) = _
  cases hlost : r.lost <;> simp [byteOf, flag]

/-! ## The status frames -/

/-- A status frame's byte holds two positions, the even one's nibble low (R140, R176). -/
theorem packNibbles_getElem (f : Pos → Nat) (i : Fin 8) :
    (packNibbles f)[i] = BitVec.ofNat 8 (f ⟨2 * i.val, by omega⟩ + 16 * f ⟨2 * i.val + 1, by omega⟩) :=
  Vector.getElem_ofFn i.isLt

theorem flag_eq_toNat (b : Bool) : flag b = b.toNat := by cases b <;> rfl

theorem qualityNibble_eq (q : Quality) :
    q.nibble = q.rough.toNat + 2 * q.sampleLoss.toNat + 4 * q.defaultCal.toNat + 8 * q.linkDown.toNat := by
  simp only [Quality.nibble, flag_eq_toNat]

/-! ## The arbiter's order (R147) -/

section
variable {vp : VehiclePort}

theorem arbitrate_suppression (h : vp.suppression.pending = true) :
    vp.arbitrate = some (vp.attempt (.suppression vp.suppression.content) 3
      (suppressionFrame vp.suppression.content vp.rolling)) := if_pos h

theorem arbitrate_response {f : Frame} (hsupp : vp.suppression.pending = false) (h : vp.response = some f) :
    vp.arbitrate = some (vp.attempt .response 2 f) := by
  simp [VehiclePort.arbitrate, hsupp, h]

theorem arbitrate_event {r : EventRecord} (hsupp : vp.suppression.pending = false) (hresponse : vp.response = none)
    (h : vp.eventSlot = some r) : vp.arbitrate = some (vp.attempt .event 7 (eventFrame r)) := by
  simp [VehiclePort.arbitrate, hsupp, hresponse, h]

theorem arbitrate_status (hsupp : vp.suppression.pending = false) (hresponse : vp.response = none)
    (hevent : vp.eventSlot = none) : vp.arbitrate = vp.statusAttempt := by
  simp [VehiclePort.arbitrate, hsupp, hresponse, hevent]

theorem statusAttempt_cls (h : vp.cls.pending = true) :
    vp.statusAttempt = some (vp.attempt (.cls vp.cls.content) 4 (packNibbles fun p => vp.cls.content[p].code)) := if_pos h

theorem statusAttempt_belt (hcls : vp.cls.pending = false) (h : vp.belt.pending = true) :
    vp.statusAttempt = some (vp.attempt (.belt vp.belt.content) 5 (packNibbles fun p => vp.belt.content[p].nibble)) := by
  simp [VehiclePort.statusAttempt, hcls, h]

theorem statusAttempt_quality (hcls : vp.cls.pending = false) (hbelt : vp.belt.pending = false)
    (h : vp.quality.pending = true) :
    vp.statusAttempt =
      some (vp.attempt (.quality vp.quality.content) 6 (packNibbles fun p => vp.quality.content[p].nibble)) := by
  simp [VehiclePort.statusAttempt, hcls, hbelt, h]

theorem statusAttempt_none (hcls : vp.cls.pending = false) (hbelt : vp.belt.pending = false)
    (h : vp.quality.pending = false) : vp.statusAttempt = none := by
  simp [VehiclePort.statusAttempt, hcls, hbelt, h]

end

/-! ## TRANSMIT_START -/

/-- A free transmitter takes the slot that the arbiter names (R147). -/
theorem exec_transmitStart {s : State} {a : Attempt} (hs : s.power = .on) (hactive : s.vp.busOff = false)
    (hfree : s.vp.wire = none) (ha : s.vp.arbitrate = some a) :
    exec .transmitStart s = .next { s with vp := { s.vp with wire := some a } } := by
  simp only [exec, execTransmitStart, ha]
  exact occurs_due hs (by simp [hactive, hfree])

/-- With no slot pending nothing is sent (R147). -/
theorem exec_transmitStart_none {s : State} (h : s.vp.arbitrate = none) : exec .transmitStart s = .next s := by
  simp only [exec, execTransmitStart, h]

/-- Settles O36, slot by slot in the arbiter's order. -/
theorem transmitStartFollowsTheArbiter : Obligations.TransmitStartFollowsTheArbiter := by
  refine ⟨fun s hs hactive hfree => ⟨fun hsupp => ?suppression, fun hsupp => ⟨fun f hresponse => ?response,
    fun hresponse => ⟨fun r hevent => ?event, fun hevent => ?status⟩⟩⟩, rfl, rfl, rfl, rfl, rfl⟩
  case suppression =>
    refine ⟨_, exec_transmitStart hs hactive hfree (arbitrate_suppression hsupp), rfl, rfl, rfl, ?_, rfl,
      suppressionFrame_check _ _ rfl⟩
    simp only [← suppByte_eq]
    exact suppressionFrame_entries ..
  case response => exact exec_transmitStart hs hactive hfree (arbitrate_response hsupp hresponse)
  case event =>
    exact ⟨_, exec_transmitStart hs hactive hfree (arbitrate_event hsupp hresponse hevent), rfl, rfl, rfl,
      eventFrame_kind r, rfl, rfl, rfl, stamp_append r.stamp, rfl⟩
  case status =>
    have hstatus := arbitrate_status hsupp hresponse hevent
    refine ⟨fun hcls => ?_, fun hcls hbelt => ?_, fun hcls hbelt hquality => ?_, fun hcls hbelt hquality => ?_⟩
    · exact ⟨_, exec_transmitStart hs hactive hfree (hstatus.trans (statusAttempt_cls hcls)), rfl, rfl, rfl,
        packNibbles_getElem fun p => s.vp.cls.content[p].code⟩
    · exact ⟨_, exec_transmitStart hs hactive hfree (hstatus.trans (statusAttempt_belt hcls hbelt)), rfl, rfl, rfl,
        packNibbles_getElem fun p => s.vp.belt.content[p].nibble⟩
    · refine ⟨_, exec_transmitStart hs hactive hfree (hstatus.trans (statusAttempt_quality hcls hbelt hquality)), rfl, rfl, rfl, ?_⟩
      simp only [← qualityNibble_eq]
      exact packNibbles_getElem fun p => s.vp.quality.content[p].nibble
    · exact exec_transmitStart_none (hstatus.trans (statusAttempt_none hcls hbelt hquality))

end Sys2Proof.Machine
end

section
/-! The ends of an attempt: success, lost arbitration and failure (R141 to R148). -/

namespace Sys2Proof.Machine

/-- The transmitter is freed and the slot stays, but for an EVENT slot that a RESET_RUNTIME would have emptied (R145, R147). -/
theorem VehiclePort.release_eq (vp : VehiclePort) (a : Attempt) :
    vp.release a = if a.payload = .event ∧ a.resetSince = true then
      { vp with wire := none, eventSlot := vp.eventQueue.head?, eventQueue := vp.eventQueue.tail }
    else { vp with wire := none } := by
  simp only [VehiclePort.release, VehiclePort.refill_does, if_true, and_comm]

/-- A failure short of the 32nd in a row counts (R148). -/
theorem VehiclePort.fail_counts {vp : VehiclePort} (a : Attempt) (h : vp.failures < 31) :
    vp.fail a = { vp.release a with failures := vp.failures + 1 } :=
  if_pos (by omega)

/-- The 32nd failure in a row is BUS_OFF (R148). -/
theorem VehiclePort.fail_busOff {vp : VehiclePort} (a : Attempt) (h : 31 ≤ vp.failures) :
    vp.fail a = { vp.release a with failures := 32, busOff := true, busOffCount := 0 } :=
  if_neg (by omega)

/-- What the end of the attempt on the wire makes of VP (R147). -/
theorem exec_attemptEnds {s : State} {a : Attempt} (hs : s.power = .on) (hwire : s.vp.wire = some a) :
    exec .transmitSuccess s = .next (s.putPort (s.vp.succeed a)) ∧
    exec .lostArbitration s = .next (s.putPort (s.vp.release a)) ∧
    exec .transmitFailure s = .next (s.putPort (s.vp.fail a)) := by
  simp only [exec, execTransmitSuccess, execLostArbitration, execTransmitFailure, hwire]
  exact ⟨occurs_due hs rfl, occurs_due hs rfl, occurs_due hs rfl⟩

/-- Settles O38: success by the kind of the frame, the other two ends by what the release of the transmitter leaves. -/
theorem attemptsSettleOrKeepTheSlot : Obligations.AttemptsSettleOrKeepTheSlot := by
  intro s a hs hwire v
  obtain ⟨hsuccess, hlost, hfailure⟩ := exec_attemptEnds hs hwire
  have hv : s.vp.release a = v := VehiclePort.release_eq ..
  refine ⟨?_, hv ▸ hlost, fun hcount => ?_, fun hcount => ?_⟩
  · rw [hsuccess]
    obtain ⟨payload, ident, data, resetSince⟩ := a
    cases payload with
    | event => simp only [VehiclePort.succeed, VehiclePort.settleSlot, VehiclePort.refill_does, if_true, State.putPort]
    | suppression | response | cls | belt | quality => rfl
  · rw [hfailure, VehiclePort.fail_counts a hcount, hv]
    rfl
  · rw [hfailure, VehiclePort.fail_busOff a hcount, hv]
    rfl

end Sys2Proof.Machine
end

section
/-! Frames on the request identifiers: discarded by a SERVING MU, or answered MALFORMED (R136, R137, R148, R150, R151, R153, R175). -/

namespace Sys2Proof.Machine

/-! ## Request identifiers (R136, R137, R148) -/

section
variable {vp : VehiclePort} {f : CanFrame}

theorem requestLevel_operational_iff (hactive : vp.busOff = false) :
    vp.requestLevel f = some .operational ↔ f.ident = vp.base := by
  by_cases h0 : f.ident = vp.base
  · simp [VehiclePort.requestLevel, hactive, h0]
  · by_cases h1 : f.ident = vp.base + 1 <;> simp [VehiclePort.requestLevel, hactive, h0, h1]

theorem requestLevel_service_iff (hactive : vp.busOff = false) :
    vp.requestLevel f = some .service ↔ f.ident = vp.base + 1 := by
  by_cases h0 : f.ident = vp.base
  · simp [VehiclePort.requestLevel, hactive, h0]
  · by_cases h1 : f.ident = vp.base + 1 <;> simp [VehiclePort.requestLevel, hactive, h0, h1]

theorem requestLevel_eq_none (h : vp.busOff = true ∨ f.ident ≠ vp.base ∧ f.ident ≠ vp.base + 1) :
    vp.requestLevel f = none := by
  rcases h with hoff | ⟨h0, h1⟩
  · exact if_pos hoff
  · rw [VehiclePort.requestLevel, if_neg h0, if_neg h1, ite_self]

end

/-- A frame that is no request leaves the part as it is, under any request row (R137, log entry 3). -/
theorem onRequest_other {s : State} {f : CanFrame} (row : Bool) (h : s.vp.requestLevel f = none) :
    onRequest s f row = .next s :=
  occurs_otherwise (.inr (by simp [h]))

/-! ## The request rows -/

/-- The commands of a frame on a request identifier. -/
def requestRows (f : CanFrame) : List Instr :=
  [Instr.requestDiscarded, .malformedRequest, .readWord, .writeWord, .writePositionStation, .writeAirbagRelevant,
    .writeOverrideEnable, .writeOverrideLatched, .writeMasked, .setModeRun, .setModeHold, .setModeConfig, .step,
    .reidentify, .resetRuntime].map f.under

/-- Each request row acts by the frame, and at a SERVING MU the test of a row that the frame's bytes name is passed. -/
theorem exec_requestRow {s : State} {f : CanFrame} {c : Instr} (hc : c ∈ requestRows f) (hwf : c.wf = true) :
    ∃ row, exec c s = onRequest s f row ∧ (s.mu.service.isSome = true → row = true) := by
  simp only [requestRows, List.map_cons, List.map_nil, List.mem_cons, List.not_mem_nil, or_false] at hc
  rcases hc with rfl | rfl | rfl | rfl | rfl | rfl | rfl | rfl | rfl | rfl | rfl | rfl | rfl | rfl | rfl
  case inl => exact ⟨_, rfl, id⟩
  case inr.inl =>
    have hbytes : (lengthOk f.data && malformedData f.data) = true := hwf
    exact ⟨_, rfl, fun _ => (Bool.and_eq_true_iff.mp hbytes).2⟩
  all_goals exact ⟨_, rfl, fun _ => hwf⟩

/-! ## Vehicle inputs -/

/-- A frame on another identifier brings an input nothing (R137). -/
theorem inputByte_other {vp : VehiclePort} {i : VehicleInput} {f : CanFrame} (h : f.ident ≠ i.ident) :
    vp.inputByte i f = none := by
  simp [VehiclePort.inputByte, h]

/-- A frame on the identifier of no input acts on no input (R137). -/
theorem thenInputs_other {s : State} {f : CanFrame} (hspeed : f.ident ≠ s.tables.speedInput.ident)
    (hpower : f.ident ≠ s.tables.powerInput.ident) (t : State) : s.thenInputs f t = t := by
  simp only [State.thenInputs, inputByte_other hspeed, inputByte_other hpower, State.takeInputs]

/-- Settles O39: every request row acts by its frame alone. -/
theorem servingUnitDiscardsRequests : Obligations.ServingUnitDiscardsRequests := by
  intro s f c hs hc hwf
  obtain ⟨row, hexec, hrow⟩ := exec_requestRow (s := s) hc hwf
  refine ⟨fun hactive hident hservice => ?_, fun hother => ?_, fun hspeed hpower t => thenInputs_other hspeed hpower t⟩
  · obtain ⟨level, hlevel⟩ : ∃ level, s.vp.requestLevel f = some level := by
      rcases hident with h0 | h1
      · exact ⟨_, (requestLevel_operational_iff hactive).mpr h0⟩
      · exact ⟨_, (requestLevel_service_iff hactive).mpr h1⟩
    rw [hexec, onRequest_next hs hlevel (hrow hservice), handRequest_discarded hservice]
  · rw [hexec, onRequest_other row (requestLevel_eq_none hother)]

/-! ## MALFORMED -/

theorem byteAt_zero (data : List Byte) : byteAt data 0 = data.headD 0 := by cases data <;> rfl

/-- A frame is malformed by its length or by its kind (R150). -/
theorem malformedData_iff (data : List Byte) : malformedData data = true ↔
    data.length ≠ 8 ∨ (data.headD 0).toNat / 16 = 0 ∨ 8 ≤ (data.headD 0).toNat / 16 := by
  simp only [malformedData, kindNibble, byteAt_zero, Bool.or_eq_true, bne_iff_ne, beq_iff_eq, decide_eq_true_eq, or_assoc]

/-- An IDLE MU answers a malformed frame, of which it has read byte 0 at most (R150, log entry 18). -/
theorem exec_malformedRequest {s : State} {f : CanFrame} {level : Level} (hserves : s.serves)
    (hlevel : s.vp.requestLevel f = some level) (h : malformedData f.data = true) :
    exec (f.under .malformedRequest) s =
      .next (s.thenInputs f (s.serving (malformedRecord level f.data) (refusal .malformed))) := by
  obtain ⟨hs, -, hservice⟩ := hserves
  refine (onRequest_next hs hlevel h).trans ?_
  simp only [State.handRequest, hservice, State.accept, h, if_true]

/-- Settles O40: malformed frames, the record of the others, and the identifiers of both. -/
theorem malformedFramesAreAnsweredMalformed : Obligations.MalformedFramesAreAnsweredMalformed := by
  refine ⟨fun s f level hserves hident hbytes => ?_, fun base rec k hlow hhigh hkind => ?_, fun vp rec f hactive => ?_⟩
  · have hactive : s.vp.busOff = false := hserves.2.1
    have hlevel : s.vp.requestLevel f = some level := by
      rcases hident with ⟨rfl, h0⟩ | ⟨rfl, h1⟩
      · exact (requestLevel_operational_iff hactive).mpr h0
      · exact (requestLevel_service_iff hactive).mpr h1
    rw [exec_malformedRequest hserves hlevel ((malformedData_iff _).mpr hbytes)]
    simp only [malformedRecord, kindNibble, byteAt_zero, refusal]
  · exact ⟨requestRecord_requestFrame base hkind, malformedData_requestFrame base hkind ⟨hlow, hhigh⟩⟩
  · exact ⟨requestLevel_requestFrame hactive rec, requestLevel_operational_iff hactive, requestLevel_service_iff hactive⟩

end Sys2Proof.Machine
end

section
/-! READ_WORD, and the words of the tables and the views (R154, R155, R159, R178 to R180). -/

namespace Sys2Proof.Machine

/-! ## The words of an entry, as numbers -/

theorem stationCode_eq_elim (o : Option Station) : stationCode o = o.elim 0 fun st => st.val + 1 := by cases o <;> rfl

theorem groupCode_eq_elim (o : Option (Fin 6)) : groupCode o = o.elim 7 (·.val) := by cases o <;> rfl

theorem BankName.code_eq_ite (name : BankName) : name.code = if name = .b then 1 else 0 := by cases name <;> rfl

theorem candidateCode_eq_elim (o : Option Cls) : candidateCode o = o.elim 0 Cls.code := by cases o <;> rfl

theorem rememberedCode_eq_elim (o : Option Reminder) : rememberedCode o = o.elim 0 Reminder.code := by cases o <;> rfl

/-- The words of a Position Table entry (R178). -/
theorem PositionEntry.map_read (e : PositionEntry) :
    (List.finRange 4).map e.read = [e.station.elim 0 (fun st => st.val + 1) + 16 * e.place.val,
      e.lampGroup.elim 7 (·.val) + 16 * e.profile.val + 64 * (if e.bank = .b then 1 else 0) + 256 * e.applicable.toNat +
        512 * e.childCheck.toNat,
      e.chimePriority, e.airbag.toNat] := by
  simp only [← stationCode_eq_elim, ← groupCode_eq_elim, ← BankName.code_eq_ite, ← flag_eq_toNat]
  rfl

/-- The words of a Calibration Table entry: the node id, the offsets and the gains (R178). -/
theorem CalibrationEntry.map_read (k : CalibrationEntry) :
    (List.finRange 49).map k.read = [k.nodeId.toNat] ++ k.offsets.toList ++ k.gains.toList := by
  refine List.ext_getElem (by simp) fun i hi _ => ?_
  have hword : i < 49 := by simpa using hi
  simp only [List.getElem_map, List.getElem_finRange, CalibrationEntry.read, Fin.val_cast]
  split
  next hid => simp [hid]
  next hid =>
    split
    next hoffset =>
      obtain ⟨j, rfl⟩ := Nat.exists_eq_succ_of_ne_zero hid
      have hj : j < 24 := by omega
      simp [hj, Nat.mod_eq_of_lt hj]
    next hgain =>
      obtain ⟨j, rfl⟩ : ∃ j, i = j + 25 := ⟨i - 25, by omega⟩
      have hj : j < 24 := by omega
      simp [Nat.mod_eq_of_lt hj]

/-- The words of a Reminder Profiles entry (R178). -/
theorem Profile.map_read (f : Profile) :
    (List.finRange 9).map f.read =
      [f.speedOn, f.pendingDelay, f.stage1, f.stage2Max, f.grace, f.retrigger.toNat, f.chimeTotal, f.chimeStart, f.chimeEnd] := by
  rw [← flag_eq_toNat]
  rfl

/-- The words of the Global Settings (R178). -/
theorem GlobalSettings.map_read (g : GlobalSettings) :
    (List.finRange 11).map g.read = [g.slotPeriod, g.retryLimit, g.probeDivider, g.chainCap, g.roughLimit, g.statusPeriod,
      g.bankBEnable.toNat, g.flashTotal, g.flashStart, g.flashEnd, g.scheduleLength] := by
  rw [← flag_eq_toNat]
  rfl

theorem Override.map_read (o : Override) : (List.finRange 2).map o.read = [o.enable.toNat, o.latched.toNat] := by
  rw [← flag_eq_toNat, ← flag_eq_toNat]
  rfl

/-- The words of a Node Map entry (R179). -/
theorem Node.map_view (n : Node) :
    (List.finRange 6).map n.view = [n.state.code + 16 * n.places + 256 * n.nodeId.toNat, n.calIndex.elim 0xFF (·.val),
      n.misses + 16 * n.hopReported.toNat, n.sequence.toNat, n.latency, n.probe] := by
  have hentry : n.view 1 = n.calIndex.elim 0xFF (·.val) := by
    unfold Node.view
    cases n.calIndex <;> rfl
  rw [← hentry, ← flag_eq_toNat]
  rfl

/-- The words of a Position Context entry (R180). -/
theorem map_contextWord (s : State) (p : Pos) :
    let k := s.cl[p]
    let c := s.ss.chains[p]
    let b := s.ru.buckles[p]
    let r := s.ru.records[p]
    (List.finRange 12).map (s.contextWord p) = [
      k.committed.code + 16 * k.candidate.elim 0 Cls.code + 256 * k.confirm + 4096 * k.disturbedRun,
      k.lastL + 16384 * k.supp.code,
      k.lastD + 16384 * c.scheduled.toNat + 32768 * c.underEval.toNat,
      k.lastF + 8 * c.loss.toNat + 16 * k.lastRaw.code + 256 *
        (k.quality.rough.toNat + 2 * k.quality.sampleLoss.toNat + 4 * k.quality.defaultCal.toNat + 8 * k.quality.linkDown.toNat)
        + 4096 * readingCode b.confirmed + 16384 * readingCode b.last,
      c.head.val + 256 * c.tail.val,
      c.len + 256 * c.epoch.toNat,
      r.timer + 4096 * r.state.code + 32768 * r.deadline.isSome.toNat,
      r.remembered.elim 0 Reminder.code + 16 * readingCode b.captureState + 256 * b.captureSpeed.toNat,
      b.captureTime.toNat % 65536,
      if c.len = 0 then 0 else s.ss.buckets[c.tail].time.toNat % 65536,
      r.deadline.elim 0 BitVec.toNat % 65536, r.deadline.elim 0 BitVec.toNat / 65536] := by
  intro k c b r
  have hdeadline : s.contextWord p 10 = r.deadline.elim 0 BitVec.toNat % 65536 ∧
      s.contextWord p 11 = r.deadline.elim 0 BitVec.toNat / 65536 := by
    simp only [State.contextWord, r]
    cases s.ru.records[p].deadline <;> exact ⟨rfl, rfl⟩
  rw [← hdeadline.1, ← hdeadline.2, ← qualityNibble_eq]
  simp only [← candidateCode_eq_elim, ← rememberedCode_eq_elim, ← flag_eq_toNat]
  rfl

/-! ## The words as they are read -/

/-- The words of an entry are read one by one (R159). -/
theorem map_readAt {n : Nat} {s : State} {make : Fin n → Address} {read : Fin n → Nat} {ns : List Nat}
    (hread : ∀ w, s.readAt (make w) = wordOf (read w)) (hwords : (List.finRange n).map read = ns) :
    (List.finRange n).map (fun w => s.readAt (make w)) = asWords ns := by
  simp only [hread, ← hwords, asWords, List.map_map]
  rfl

/-- R178: every table word has the fields of its entry at their bits. -/
theorem tableWords (s : State) : s.TableWords := by
  refine ⟨fun p => ?_, fun k => ?_, ?_, ?_, fun i => ?_, fun i => ?_, ?_, ?_, ?_, fun i => ?_⟩
  · exact map_readAt (fun _ => rfl) s.tables.positions[p].map_read
  · exact map_readAt (fun _ => rfl) s.tables.calibration[k].map_read
  · exact map_readAt (fun _ => rfl) (read := s.tables.bankA.read) rfl
  · exact map_readAt (fun _ => rfl) (read := s.tables.bankB.read) rfl
  · exact map_readAt (fun _ => rfl) s.tables.profiles[i].map_read
  · exact congrArg wordOf (stationCode_eq_elim s.tables.schedule[i])
  · exact map_readAt (fun _ => rfl) s.tables.globals.map_read
  · exact map_readAt (fun _ => rfl) (read := s.tables.speedInput.read) rfl
  · exact map_readAt (fun _ => rfl) (read := s.tables.powerInput.read) rfl
  · exact map_readAt (fun _ => rfl) s.ou.overrides[i].map_read

/-- R179, R180: every view word has what the blocks hold of the station or the position at its bits. -/
theorem viewWords (s : State) : s.ViewWords :=
  ⟨fun st => map_readAt (fun _ => rfl) s.sm.nodes[st].map_view, fun p => map_readAt (fun _ => rfl) (map_contextWord s p)⟩

/-! ## READ_WORD -/

/-- A READ_WORD frame is served (R150, R151). -/
theorem exec_readWord {s : State} {rec : RequestRecord} (hserves : s.serves) (hkind : rec.ofKind 1) :
    exec ((requestFrame s.vp.base rec).under .readWord) s = .next (s.thenInputs (requestFrame s.vp.base rec)
      ((s.serveRead rec).1.serving rec (s.serveRead rec).2)) := by
  have hserve : s.serve rec = s.serveRead rec := by simp only [State.serve, hkind.2.1]
  rw [← hserve]
  exact onRequest_served hserves hkind (by decide) (isKind_requestFrame _ hkind)

/-- An item that exists and may be touched is read as it stands (R159). -/
theorem serveRead_present {s : State} {rec : RequestRecord} {a : Address} (ha : address rec.id rec.entry rec.word = some a)
    (htouch : mayTouch rec.level a = true) : s.serveRead rec = (s, okay (s.readAt a)) := by
  simp [State.serveRead, ha, htouch]

/-- Any other item is not present (R154, R155). -/
theorem serveRead_notPresent {s : State} {rec : RequestRecord}
    (h : ∀ a, address rec.id rec.entry rec.word = some a → mayTouch rec.level a = false) :
    s.serveRead rec = (s, refusal .notPresent) := by
  unfold State.serveRead
  split
  next => rfl
  next a ha => simp [h a ha]

/-- Settles O41: the words of every entry, and the two answers of READ_WORD. -/
theorem readWordAnswersTheWordAsItStands : Obligations.ReadWordAnswersTheWordAsItStands := by
  refine ⟨fun s => ⟨tableWords s, viewWords s⟩, fun s rec hserves hkind => ⟨fun a ha htouch => ?_, fun hhidden => ?_⟩⟩
  · rw [exec_readWord hserves hkind, serveRead_present ha htouch]
    rfl
  · rw [exec_readWord hserves hkind, serveRead_notPresent hhidden]
    rfl

end Sys2Proof.Machine
end

section
/-! STEP, and the hand-over of a response (R151, R152, R163). -/

namespace Sys2Proof.Machine

/-! ## STEP -/

/-- A STEP frame is served (R150, R151). -/
theorem exec_step {s : State} {rec : RequestRecord} (hserves : s.serves) (hkind : rec.ofKind 5) :
    exec ((requestFrame s.vp.base rec).under .step) s = .next (s.thenInputs (requestFrame s.vp.base rec)
      ((s.serveStep rec).1.serving rec (s.serveStep rec).2)) := by
  have hserve : s.serve rec = s.serveStep rec := by simp only [State.serve, hkind.2.1]
  rw [← hserve]
  exact onRequest_served hserves hkind (by decide) (isKind_requestFrame _ hkind)

/-- Outside HOLD a STEP is refused by the mode, and in HOLD by its count or begun (R163). -/
theorem serveStep_eq (s : State) (rec : RequestRecord) :
    (s.mode ≠ .hold → s.serveStep rec = (s, refusal .mode)) ∧
    (s.mode = .hold → rec.entry.toNat = 0 ∨ 16 < rec.entry.toNat → s.serveStep rec = (s, refusal .range)) ∧
    (s.mode = .hold → 1 ≤ rec.entry.toNat → rec.entry.toNat ≤ 16 →
      s.serveStep rec = (s, .stepping { count := rec.entry.toNat, remaining := rec.entry.toNat })) := by
  unfold State.serveStep
  refine ⟨fun hmode => if_pos hmode, fun hmode hcount => ?_, fun hmode hleast hmost => ?_⟩
  · exact (if_neg (not_not.mpr hmode)).trans (if_pos (by omega))
  · exact (if_neg (not_not.mpr hmode)).trans (if_neg (by omega))

/-- Settles O49, by the mode and the count. -/
theorem stepIsServedInHoldOnly : Obligations.StepIsServedInHoldOnly := by
  intro s rec hserves hkind f
  have hexec := exec_step hserves hkind
  obtain ⟨hmode, hrange, hbegun⟩ := serveStep_eq s rec
  refine ⟨fun hhold hleast hmost => ?_, fun hhold hcount => ?_, fun hother => ?_⟩
  · exact hexec.trans (by rw [hbegun hhold hleast hmost])
  · exact hexec.trans (by rw [hrange hhold hcount]; rfl)
  · exact hexec.trans (by rw [hmode hother]; rfl)

/-! ## RESPONSE_HANDOVER -/

/-- The data bytes of a response, low byte first, spell the data word (R152). -/
theorem responseFrame_data (rec : RequestRecord) (r : Result) (overlap : Bool) (m : Mode) :
    ((responseFrame rec r overlap m)[4] ++ (responseFrame rec r overlap m)[3] : BitVec 16) = r.data :=
  bytes_append r.data

/-- A result that is ready is handed over when the RESPONSE slot is empty, and waits for it otherwise (R151, R152). -/
theorem exec_responseHandover {s : State} {rec : RequestRecord} {r : Result} (hs : s.power = .on)
    (hservice : s.mu.service = some { req := rec, work := .result r }) :
    (s.vp.response = none → exec .responseHandover s = .next (s.handOver rec r)) ∧
    (s.vp.response.isSome = true → exec .responseHandover s = .next s) := by
  have hready : s.mu.ready = some (rec, r) := by simp only [ManagementUnit.ready, hservice]
  have hexec : exec .responseHandover s = occurs s s.vp.response.isNone (s.handOver rec r) := by
    change execResponseHandover s = _
    simp only [execResponseHandover, hready]
  refine ⟨fun hempty => hexec.trans (occurs_due hs (by simp [hempty])), fun hfull => hexec.trans (occurs_otherwise (.inr ?_))⟩
  simpa using hfull

/-- Settles O52: the frame is that of R152, and a full slot makes MU wait. -/
theorem handOverFormsTheResponse : Obligations.HandOverFormsTheResponse := by
  refine ⟨rfl, rfl, fun s rec r hs hservice => ?_⟩
  obtain ⟨hempty, hfull⟩ := exec_responseHandover hs hservice
  exact ⟨fun hslot => ⟨responseFrame rec r s.mu.overlap s.mode, hempty hslot, rfl, rfl, rfl,
    responseFrame_data rec r s.mu.overlap s.mode, rfl, rfl, rfl⟩, hfull⟩

end Sys2Proof.Machine
end

section
/-! The checks of a write, in the spec's terms: the items that exist and may be touched, and the values that they take (R153 to
R157, R178). -/

namespace Sys2Proof.Machine

/-! ## Items (R154) -/

theorem index_eq_some_iff {n k : Nat} {i : Fin n} : index n k = some i ↔ i.val = k := by
  unfold index
  split
  next => simp [Fin.ext_iff, eq_comm]
  next hbeyond =>
    refine iff_of_false nofun ?_
    rintro rfl
    exact hbeyond i.isLt

/-- Within a shape, an address is that of its entry and its word. -/
theorem addressIn_eq_some_iff {n m : Nat} {make : Fin n → Fin m → Address} {e w : Byte} {a : Address} :
    addressIn make e w = some a ↔ ∃ i j, i.val = e.toNat ∧ j.val = w.toNat ∧ make i j = a := by
  simp only [← index_eq_some_iff, addressIn]
  cases index n e.toNat <;> cases index m w.toNat <;> simp

theorem isSome_addressIn {n m : Nat} {make : Fin n → Fin m → Address} {e w : Byte} (he : e.toNat < n) (hw : w.toNat < m) :
    (addressIn make e w).isSome = true := by
  simp [addressIn, index, he, hw]

/-- A table id, an entry and a word name the item that has them (R154). -/
theorem address_eq_some_iff {id entry word : Byte} {a : Address} :
    address id entry word = some a ↔ a.tableId = id.toNat ∧ a.entryNo = entry.toNat ∧ a.wordNo = word.toNat := by
  constructor
  · intro h
    unfold address at h
    split at h
    case h_12 => cases h
    all_goals
      next hid =>
        obtain ⟨i, j, hentry, hword, rfl⟩ := addressIn_eq_some_iff.mp h
        simp only [Address.tableId, Address.entryNo, Address.wordNo, hid, true_and]
        omega
  · rintro ⟨hid, hentry, hword⟩
    unfold address
    rw [← hid]
    cases a with
    | bank name w => cases name <;> exact addressIn_eq_some_iff.mpr ⟨0, w, hentry, hword, rfl⟩
    | schedule i => exact addressIn_eq_some_iff.mpr ⟨i, 0, hentry, hword, rfl⟩
    | globals w => exact addressIn_eq_some_iff.mpr ⟨0, w, hentry, hword, rfl⟩
    | _ => exact addressIn_eq_some_iff.mpr ⟨_, _, hentry, hword, rfl⟩

/-- Every item lies within the shape of its table (R154). -/
theorem Address.within_shape (a : Address) :
    ∃ row ∈ itemShapes, a.tableId = row.1 ∧ a.entryNo < row.2.1 ∧ a.wordNo < row.2.2 := by
  cases a with
  | position p w => exact ⟨(1, 16, 4), by decide, rfl, p.isLt, w.isLt⟩
  | calibration e w => exact ⟨(2, 16, 49), by decide, rfl, e.isLt, w.isLt⟩
  | bank name w =>
    cases name
    case a => exact ⟨(3, 1, 9), by decide, rfl, Nat.one_pos, w.isLt⟩
    case b => exact ⟨(4, 1, 9), by decide, rfl, Nat.one_pos, w.isLt⟩
  | profile e w => exact ⟨(5, 4, 9), by decide, rfl, e.isLt, w.isLt⟩
  | schedule i => exact ⟨(6, 64, 1), by decide, rfl, i.isLt, Nat.one_pos⟩
  | globals w => exact ⟨(7, 1, 11), by decide, rfl, Nat.one_pos, w.isLt⟩
  | input e w => exact ⟨(8, 2, 2), by decide, rfl, e.isLt, w.isLt⟩
  | override e w => exact ⟨(9, 7, 2), by decide, rfl, e.isLt, w.isLt⟩
  | node e w => exact ⟨(10, 8, 6), by decide, rfl, e.isLt, w.isLt⟩
  | context p w => exact ⟨(11, 16, 12), by decide, rfl, p.isLt, w.isLt⟩

/-- R154: an item exists exactly within the shape of its table. -/
theorem isSome_address_iff (id entry word : Byte) : (address id entry word).isSome = true ↔
    ∃ row ∈ itemShapes, id.toNat = row.1 ∧ entry.toNat < row.2.1 ∧ word.toNat < row.2.2 := by
  constructor
  · intro h
    obtain ⟨a, ha⟩ := Option.isSome_iff_exists.mp h
    obtain ⟨hid, hentry, hword⟩ := address_eq_some_iff.mp ha
    rw [← hid, ← hentry, ← hword]
    exact a.within_shape
  · rintro ⟨row, hrow, hid, hentry, hword⟩
    unfold address
    rw [hid]
    simp only [itemShapes, List.mem_cons, List.not_mem_nil, or_false] at hrow
    rcases hrow with rfl | rfl | rfl | rfl | rfl | rfl | rfl | rfl | rfl | rfl | rfl <;> exact isSome_addressIn hentry hword

/-! ## Access and modes (R154 to R156) -/

theorem isView_iff (a : Address) : a.isView = true ↔ a.tableId = 10 ∨ a.tableId = 11 := by
  cases a with
  | bank name w => cases name <;> simp [Address.isView, Address.tableId]
  | _ => simp [Address.isView, Address.tableId]

/-- R155: the operational identifier may touch all but the service-only items. -/
theorem mayTouch_operational_iff {a : Address} : mayTouch .operational a = true ↔ ¬ a.ServiceOnly := by
  cases a with
  | position p w => simp [mayTouch, Address.ServiceOnly, Address.tableId, Address.wordNo, Fin.ext_iff]
  | bank name w => cases name <;> simp [mayTouch, Address.ServiceOnly, Address.tableId]
  | _ => simp [mayTouch, Address.ServiceOnly, Address.tableId]

theorem Mode.ne_run_iff {m : Mode} : m ≠ .run ↔ m = .config ∨ m = .hold := by cases m <;> decide

/-- R156: each table is writable in its modes. -/
theorem writableIn_iff (a : Address) (m : Mode) : a.writableIn m = true ↔ a.OpenIn m := by
  cases a with
  | bank name w =>
    cases name <;> exact bne_iff_ne.trans Mode.ne_run_iff
  | profile e w => exact bne_iff_ne.trans Mode.ne_run_iff
  | override e w =>
    change (w == 1 || m != .run) = true ↔ w.val = 1 ∨ m = .config ∨ m = .hold
    rw [Bool.or_eq_true, bne_iff_ne, Mode.ne_run_iff, beq_iff_eq, Fin.ext_iff]
    rfl
  | node | context => exact iff_of_false nofun id
  | _ => exact beq_iff_eq

/-! ## Ranges (R157, R178) -/

/-- A word of one field from bit 0 on takes the values of the field's range. -/
theorem inRange_low {width least most : Nat} {v : Word} (hfits : most < 2 ^ width) :
    inRange [low width least most] v = true ↔ least ≤ v.toNat ∧ v.toNat ≤ most := by
  have hbits : bits v 0 width = v.toNat % 2 ^ width := by simp [bits]
  simp only [inRange_iff, low, Field.value, List.forall_mem_singleton, List.map_cons, List.map_nil, List.sum_singleton, hbits]
  constructor
  · rintro ⟨hrange, hvalue⟩
    have hfield : v.toNat % 2 ^ width = v.toNat := by simpa using hvalue
    simpa [hfield] using hrange
  · rintro ⟨hleast, hmost⟩
    simp [Nat.mod_eq_of_lt (hmost.trans_lt hfits), hleast, hmost]

theorem inRange_upTo {width most : Nat} {v : Word} (hfits : most < 2 ^ width) :
    inRange [low width 0 most] v = true ↔ v.toNat ≤ most := (inRange_low hfits).trans (by simp)

/-- A word of one field takes the values of its row. -/
theorem inRange_row {ranges : List (Nat × Nat)} {w width least most : Nat} {v : Word} (hrow : ranges[w]? = some (least, most))
    (hfits : most < 2 ^ width) : inRange [low width least most] v = true ↔ WithinRow ranges w v.toNat := by
  rw [inRange_low hfits, WithinRow, hrow]
  simp

/-- A Position Table word 0 is a station of 0 to 8 and a place of 0 to 3. -/
theorem inRange_station {v : Word} : inRange (positionLayout 0) v = true ↔
    ∃ station place : Nat, station ≤ 8 ∧ place ≤ 3 ∧ v.toNat = station + 16 * place := by
  have hfields : inRange (positionLayout 0) v = true ↔
      (v.toNat % 16 ≤ 8 ∧ v.toNat / 16 % 4 ≤ 3) ∧ v.toNat % 16 + v.toNat / 16 % 4 * 16 = v.toNat := by
    simp [inRange_iff, positionLayout, low, Field.value, bits]
  rw [hfields]
  constructor
  · rintro ⟨⟨hstation, hplace⟩, hvalue⟩
    exact ⟨v.toNat % 16, v.toNat / 16 % 4, hstation, hplace, by omega⟩
  · rintro ⟨station, place, hstation, hplace, hvalue⟩
    omega

/-- A Position Table word 1 is a lamp group, a profile, a bank and two flags. -/
theorem inRange_assignment {v : Word} : inRange (positionLayout 1) v = true ↔
    ∃ group profile bank applicable check : Nat, (group ≤ 5 ∨ group = 7) ∧ profile ≤ 3 ∧ bank ≤ 1 ∧ applicable ≤ 1 ∧
      check ≤ 1 ∧ v.toNat = group + 16 * profile + 64 * bank + 256 * applicable + 512 * check := by
  have hfields : inRange (positionLayout 1) v = true ↔
      ((v.toNat % 8 ≤ 5 ∨ v.toNat % 8 = 7) ∧ v.toNat / 16 % 4 ≤ 3 ∧ v.toNat / 64 % 2 ≤ 1 ∧ v.toNat / 256 % 2 ≤ 1 ∧
        v.toNat / 512 % 2 ≤ 1) ∧
      v.toNat % 8 + v.toNat / 16 % 4 * 16 + v.toNat / 64 % 2 * 64 + v.toNat / 256 % 2 * 256 + v.toNat / 512 % 2 * 512 =
        v.toNat := by
    simp [inRange_iff, positionLayout, Field.value, bits, add_assoc, eq_comm (a := 7)]
  rw [hfields]
  constructor
  · rintro ⟨⟨hgroup, -⟩, hvalue⟩
    exact ⟨v.toNat % 8, v.toNat / 16 % 4, v.toNat / 64 % 2, v.toNat / 256 % 2, v.toNat / 512 % 2, by omega⟩
  · rintro ⟨group, profile, bank, applicable, check, hgroup, hprofile, hbank, happlicable, hcheck, hvalue⟩
    omega

/-- R157: each table word takes the values of its ranges, with every unused bit 0. -/
theorem inRange_layout_iff {a : Address} (htable : a.isView = false) (v : Word) :
    inRange a.layout v = true ↔ a.Takes v.toNat := by
  cases a with
  | position p w =>
    match w with
    | 0 => exact inRange_station
    | 1 => exact inRange_assignment
    | 2 | 3 => exact inRange_upTo (by decide)
  | calibration e w =>
    change inRange [calibrationLayout w] v = true ↔
      if w.val = 0 then v.toNat ≤ 254 else if w.val ≤ 24 then v.toNat ≤ 1023 else v.toNat ≤ 255
    unfold calibrationLayout
    (repeat' split) <;> exact inRange_upTo (by decide)
  | bank name w => cases name <;> fin_cases w <;> exact inRange_row rfl (by decide)
  | profile e w => fin_cases w <;> exact inRange_row rfl (by decide)
  | schedule i => exact inRange_upTo (by decide)
  | globals w => fin_cases w <;> exact inRange_row rfl (by decide)
  | input e w => fin_cases w <;> exact inRange_upTo (by decide)
  | override e w => exact inRange_upTo (by decide)
  | node | context => cases htable

end Sys2Proof.Machine
end

section
/-! The conflicts of a write with another entry, and refused writes (R153, R158). -/

namespace Sys2Proof.Machine

/-! ## The first of the positions -/

/-- The first position that meets a test is the lowest that does. -/
theorem find?_allPos_iff {test : Pos → Bool} {P : Pos → Prop} (htest : ∀ q, test q = true ↔ P q) {e : Pos} :
    allPos.find? test = some e ↔ P e ∧ ∀ q < e, ¬ P q := by
  have hfind : allPos.find? test = Fin.find? test := Fin.find?_eq_find?_finRange.symm
  simp only [hfind, Fin.find?_eq_some_iff, htest, ← Bool.not_eq_true]

/-- The first two of a list in ascending order: `e` comes first, and another one after it. -/
theorem ascending_head_iff {l : List Pos} (hl : l.Pairwise (· < ·)) {e : Pos} :
    (∃ b rest, l = e :: b :: rest) ↔ e ∈ l ∧ (∃ q > e, q ∈ l) ∧ ∀ q < e, q ∉ l := by
  constructor
  · rintro ⟨b, rest, rfl⟩
    obtain ⟨habove, -⟩ := List.pairwise_cons.mp hl
    refine ⟨by simp, ⟨b, habove b (by simp), by simp⟩, fun q hq hmem => ?_⟩
    rcases List.mem_cons.mp hmem with rfl | hlater
    · exact lt_irrefl _ hq
    · exact lt_asymm hq (habove q hlater)
  · rintro ⟨hmem, ⟨q, hqe, hq⟩, hlowest⟩
    match l, hl with
    | a :: rest, hl =>
      obtain ⟨habove, -⟩ := List.pairwise_cons.mp hl
      obtain rfl : e = a := by
        rcases List.mem_cons.mp hmem with heq | hlater
        · exact heq
        · exact absurd List.mem_cons_self (hlowest a (habove e hlater))
      match rest with
      | b :: rest => exact ⟨b, rest, rfl⟩
      | [] => exact absurd (List.mem_singleton.mp hq) hqe.ne'

/-! ## The three conflicts (R158) -/

/-- R158: another position than `p` with the station and the place that `v` gives. -/
def Tables.HasPlace (t : Tables) (p : Pos) (v : Nat) (q : Pos) : Prop :=
  q ≠ p ∧ (t.positions[q].station.map fun st => st.val + 1) = some (v % 16) ∧ t.positions[q].place.val = v / 16

theorem conflictsWith_station {t : Tables} {p : Pos} {v : Nat} {e : Pos} :
    t.ConflictsWith (.position p 0) v e ↔ t.HasPlace p v e ∧ ∀ q < e, ¬ t.HasPlace p v q := Iff.rfl

/-- R158: another position than `p` that is airbag-relevant. -/
def Tables.OtherFlagged (t : Tables) (p q : Pos) : Prop := q ≠ p ∧ t.positions[q].airbag = true

theorem conflictsWith_flag {t : Tables} {p : Pos} {v : Nat} {e : Pos} : t.ConflictsWith (.position p 3) v e ↔
    v = 1 ∧ t.OtherFlagged p e ∧ (∃ q > e, t.OtherFlagged p q) ∧ ∀ q < e, ¬ t.OtherFlagged p q := Iff.rfl

/-- R158: another calibration entry than `k` with node id `v`. -/
def Tables.HasNode (t : Tables) (k : Fin 16) (v : Nat) (q : Fin 16) : Prop := q ≠ k ∧ t.calibration[q].nodeId.toNat = v

theorem conflictsWith_node {t : Tables} {k : Fin 16} {v : Nat} {e : Fin 16} :
    t.ConflictsWith (.calibration k 0) v e ↔ v ≠ 0 ∧ t.HasNode k v e ∧ ∀ q < e, ¬ t.HasNode k v q := Iff.rfl

theorem stationOf_eq_some_iff {n : Nat} (h : n ≤ 8) {st : Station} : stationOf n = some st ↔ st.val + 1 = n := by
  constructor
  · intro hst
    have hcode := stationCode_stationOf h
    rwa [hst] at hcode
  · rintro rfl
    exact stationOf_succ st

/-- R158: the lowest other position with the station and the place that are written. -/
theorem samePlace_iff {t : Tables} {p : Pos} {v : Word} {e : Pos} (htakes : (Address.position p 0).Takes v.toNat) :
    t.samePlace p v = some e ↔ t.ConflictsWith (.position p 0) v.toNat e := by
  obtain ⟨station, place, hstation, hplace, hvalue⟩ := htakes
  have hlow : bits v 0 4 = station := by simp [bits]; omega
  have hhigh : bits v 4 2 = v.toNat / 16 := by simp [bits]; omega
  have hcode : v.toNat % 16 = station := by omega
  rw [conflictsWith_station, Tables.samePlace, hlow, hhigh]
  split
  next hnone =>
    refine iff_of_false nofun ?_
    rintro ⟨⟨-, hsame, -⟩, -⟩
    rw [hcode] at hsame
    obtain ⟨st, -, hst⟩ := Option.map_eq_some_iff.mp hsame
    rw [(stationOf_eq_some_iff hstation).mpr hst] at hnone
    cases hnone
  next st hst =>
    have hnumber := (stationOf_eq_some_iff hstation).mp hst
    refine find?_allPos_iff fun q => ?_
    simp [Tables.HasPlace, hcode, ← hnumber, Option.map_eq_some_iff, Fin.val_inj, and_assoc]

/-- R158: the lower of two other flagged positions, where a third would be flagged. -/
theorem thirdAirbag_iff {t : Tables} {p : Pos} {v : Word} {e : Pos} (htakes : (Address.position p 3).Takes v.toNat) :
    t.thirdAirbag p v = some e ↔ t.ConflictsWith (.position p 3) v.toNat e := by
  have hflag : v.toNat ≤ 1 := htakes
  have hbit : bits v 0 1 = v.toNat := by simp [bits]; omega
  have hsorted : (allPos.filter fun q => q != p && t.positions[q].airbag).Pairwise (· < ·) := List.Pairwise.filter _ (by decide)
  have hlead := ascending_head_iff hsorted (e := e)
  simp only [List.mem_filter, mem_allPos, true_and, Bool.and_eq_true, bne_iff_ne] at hlead
  simp only [conflictsWith_flag, Tables.OtherFlagged, ← hlead, Tables.thirdAirbag, hbit]
  split
  next a b rest hlist =>
    rw [hlist]
    simp
  next hshort =>
    refine iff_of_false nofun ?_
    rintro ⟨-, b, rest, hlist⟩
    exact hshort _ _ _ hlist

/-- R158: the other entry with the node id that is written. -/
theorem sameNode_iff {t : Tables} {k : Fin 16} {v : Word} {e : Fin 16} (htakes : (Address.calibration k 0).Takes v.toNat) :
    t.sameNode k v = some e ↔ t.ConflictsWith (.calibration k 0) v.toNat e := by
  have hrange : v.toNat ≤ 254 := htakes
  have hbyte : bits v 0 8 = v.toNat := by simp [bits]; omega
  rw [conflictsWith_node, Tables.sameNode, hbyte]
  split
  next hzero => exact iff_of_false nofun fun ⟨hne, _⟩ => hne hzero
  next hne =>
    rw [and_iff_right hne]
    exact find?_allPos_iff fun q => by simp [Tables.HasNode]

/-- R158: a write conflicts with the entry that the three rules name, and with none under any other. -/
theorem conflict_iff {t : Tables} {a : Address} {v : Word} {e : Fin 16} (htakes : a.Takes v.toNat) :
    t.conflict a v = some e ↔ t.ConflictsWith a v.toNat e := by
  unfold Tables.conflict
  split
  next => exact samePlace_iff htakes
  next => exact thirdAirbag_iff htakes
  next => exact sameNode_iff htakes
  next hstation hflag hnode =>
    refine iff_of_false nofun ?_
    unfold Tables.ConflictsWith
    split
    next => exact (hstation _ rfl).elim
    next => exact (hflag _ rfl).elim
    next => exact (hnode _ rfl).elim
    next => exact id

/-! ## Refused writes (R153) -/

/-- An item that is a view or may not be touched is not present for a write (R153 to R155). -/
theorem serveWrite_notPresent {s : State} {rec : RequestRecord}
    (h : ∀ a, address rec.id rec.entry rec.word = some a → a.isView = true ∨ mayTouch rec.level a = false) :
    s.serveWrite rec = (s, refusal .notPresent) := by
  unfold State.serveWrite
  split
  next => rfl
  next a ha => exact if_pos (by simpa using h a ha)

section
variable {s : State} {rec : RequestRecord} {a : Address} (ha : address rec.id rec.entry rec.word = some a)
  (htable : a.isView = false) (htouch : mayTouch rec.level a = true)
include ha htable htouch

theorem serveWrite_mode (hmode : a.writableIn s.mode = false) : s.serveWrite rec = (s, refusal .mode) := by
  simp [State.serveWrite, ha, htable, htouch, hmode]

variable (hmode : a.writableIn s.mode = true)
include hmode

theorem serveWrite_range (hrange : inRange a.layout rec.value = false) : s.serveWrite rec = (s, refusal .range) := by
  simp [State.serveWrite, ha, htable, htouch, hmode, hrange]

theorem serveWrite_conflict (hrange : inRange a.layout rec.value = true) {e : Fin 16}
    (hconflict : s.tables.conflict a rec.value = some e) : s.serveWrite rec = (s, refusal .conflict (byteOf e.val)) := by
  simp [State.serveWrite, ha, htable, htouch, hmode, hrange, hconflict]

end

/-- Settles O43: each check in the spec's terms, and the answer of the first that fails. -/
theorem refusedWriteChangesNothing : Obligations.RefusedWriteChangesNothing := by
  refine ⟨fun id entry word => ⟨isSome_address_iff id entry word, fun _ => address_eq_some_iff⟩,
    fun a => ⟨isView_iff a, rfl, mayTouch_operational_iff, writableIn_iff a, inRange_layout_iff, fun _ _ _ => conflict_iff⟩, ?_⟩
  intro s rec c hserves hkind f hc hwf answered
  have hrefused (r : Result) (h : s.serveWrite rec = (s, .result r)) : answered r := by
    change exec _ s = _
    rw [exec_write hserves hkind hc hwf, h]
  refine ⟨fun hhidden => hrefused _ (serveWrite_notPresent hhidden), fun a ha htable htouch => ⟨fun hmode => ?_,
    fun hmode hrange => ?_, fun hmode hrange e hconflict => ?_⟩⟩
  · exact hrefused _ (serveWrite_mode ha htable htouch hmode)
  · exact hrefused _ (serveWrite_range ha htable htouch hmode hrange)
  · exact hrefused _ (serveWrite_conflict ha htable htouch hmode hrange hconflict)

end Sys2Proof.Machine
end

section
/-! Requests on the operational identifier for what only the service identifier may touch (R155, R161, R164, R165). -/

namespace Sys2Proof.Machine

/-- The operational identifier may touch no word of the Calibration Table and no airbag-relevant flag (R155). -/
theorem mayTouch_hidden {id entry word : Byte} (h : id = 2 ∨ id = 1 ∧ word = 3) {a : Address}
    (ha : address id entry word = some a) : mayTouch .operational a = false := by
  obtain ⟨hid, -, hword⟩ := address_eq_some_iff.mp ha
  rw [← Bool.not_eq_true, mayTouch_operational_iff, not_not]
  rcases h with rfl | ⟨rfl, rfl⟩
  · exact .inl hid
  · exact .inr ⟨hid, hword⟩

/-- The operational identifier may not ask for CONFIG (R164). -/
theorem serveSetMode_config_operational {s : State} {rec : RequestRecord} (hid : rec.id = 0) (hlevel : rec.level = .operational) :
    s.serveSetMode rec = (s, refusal .notPresent) := by
  have hnamed : modeOf rec.id = some .config := by rw [hid]; rfl
  unfold State.serveSetMode
  rw [hnamed]
  exact if_pos ⟨rfl, hlevel⟩

theorem serveReset_operational {s : State} {rec : RequestRecord} (hlevel : rec.level = .operational) :
    s.serveReset rec = (s, refusal .notPresent) := if_pos hlevel

/-- Settles O45, kind by kind: the level is checked before anything is done. -/
theorem operationalLevelCannotTouchServiceItems : Obligations.OperationalLevelCannotTouchServiceItems := by
  intro s rec c k hserves hlevel hkind f hidden hcase hwf
  have htouch (h : hidden) (a : Address) (ha : address rec.id rec.entry rec.word = some a) : mayTouch rec.level a = false := by
    rw [hlevel]
    exact mayTouch_hidden h ha
  rcases hcase with ⟨hhidden, ⟨rfl, rfl⟩ | ⟨rfl, hc⟩⟩ | ⟨hid, hword, rfl, rfl⟩ | ⟨hid, rfl, rfl⟩ | ⟨rfl, rfl⟩
  · rw [exec_readWord hserves hkind, serveRead_notPresent (htouch hhidden)]
    rfl
  · have hrow : c ∈ [Instr.writeWord, .writePositionStation, .writeAirbagRelevant, .writeOverrideEnable,
        .writeOverrideLatched].map f.under := by
      simp only [List.map_cons, List.map_nil, List.mem_cons, List.not_mem_nil, or_false] at hc ⊢
      tauto
    rw [exec_write hserves hkind hrow hwf, serveWrite_notPresent fun a ha => .inr (htouch hhidden a ha)]
    rfl
  · rw [exec_writeMasked hserves hkind, serveMasked_hidden hid (w := 3) (by rw [hword]; rfl) rfl hlevel]
    rfl
  · rw [exec_setMode hserves hkind (by simp [f]) hwf, serveSetMode_config_operational hid hlevel]
    rfl
  · rw [exec_resetRuntime hserves hkind, serveReset_operational hlevel]
    rfl

end Sys2Proof.Machine
end

section
/-! The step and its command: every command answers a next state, and none touches the queue of the commands that wait (log entries
2, 3, 19). -/

namespace Sys2Proof.Machine

/-! ## A command answers a next state -/

/-- Whether its event comes about or not, a row of the line answers a next state. -/
theorem onLine_answers (s : State) (line : Samples) (f : State → Poll → LineEvent → Option State) :
    ∃ t, onLine s line f = .next t := by
  unfold onLine
  (repeat' split) <;> exact ⟨_, rfl⟩

theorem afterLine_answers (s : State) (line : Samples) (due : Bool) (f : State → State) :
    ∃ t, afterLine s line due f = .next t := by
  unfold afterLine
  split <;> exact ⟨_, rfl⟩

/-- No command stops the part, and none is without a meaning (log entry 19). -/
theorem exec_answers (c : Instr) (s : State) : ∃ t, exec c s = .next t := by
  cases c with
  | slotStart line | stepAdvance line => exact afterLine_answers ..
  | pollSend line | lineBusy line | pollEnd line | noReply line | endOfFrameIdle line | receptionLimit line
  | replyStartBit line =>
    dsimp only [exec, execPollSend, execLineBusy, execPollEnd, execNoReply, execEndOfFrameIdle, execReceptionLimit,
      execReplyStartBit]
    exact onLine_answers ..
  | replyReceived line stop | replyByteRead line stop =>
    dsimp only [exec, execReplyReceived, execReplyByteRead]
    exact onLine_answers ..
  | lineLowSample line =>
    dsimp only [exec, execLineLowSample]
    split <;> exact ⟨_, rfl⟩
  | evaluationCompletion | transmitStart | transmitSuccess | lostArbitration | transmitFailure | responseHandover =>
    dsimp only [exec, execEvaluationCompletion, execTransmitStart, execTransmitSuccess, execLostArbitration,
      execTransmitFailure, execResponseHandover]
    split <;> exact ⟨_, rfl⟩
  | _ => exact ⟨_, rfl⟩

/-! ## No effect touches the commands that wait -/

theorem Served.pending_eq {s t : State} {w : Work} (h : Served s t w) : t.pending = s.pending := by
  cases h <;> simp

theorem receive_pending (s : State) (f : CanFrame) : (s.receive f).pending = s.pending :=
  receive_induction (fun t => t.pending = s.pending) rfl
    (fun t speed power ht => by simpa using ht)
    (fun _ => rfl)
    (fun _ _ _ _ hserved => hserved.pending_eq) f

/-- A reset alone builds its state anew, and it takes the waiting commands over; every other effect leaves them where they are. -/
theorem RowEffect.pending_eq {s t : State} (h : RowEffect s t) : t.pending = s.pending := by
  cases h with
  | fresh straps => rfl
  | blank power => rfl
  | frame f => exact receive_pending s f
  | _ => simp

/-! ## The statements -/

/-- Settles O2: the command answers a next state, which is an effect of a row, and no such effect touches the queue. -/
theorem everyCommandAnswersANextState : Obligations.EveryCommandAnswersANextState := by
  intro c s
  obtain ⟨t, ht⟩ := exec_answers c s
  exact ⟨t, ht, (exec_effect ht).pending_eq⟩

/-- The front command is carried out with the queue's rest. -/
theorem step_cons {c : Instr} {rest : List Instr} {s : State} (h : s.pending = c :: rest) :
    step s = exec c { s with pending := rest } := by
  unfold step
  rw [h]

/-- On an empty queue the part idles. -/
theorem step_nil {s : State} (h : s.pending = []) : step s = .next s := by
  unfold step
  rw [h]

/-- Settles O1, by the two shapes of the queue. -/
theorem stepRunsTheFrontCommand : Obligations.StepRunsTheFrontCommand :=
  ⟨fun _ _ _ h => step_cons h, fun _ h => step_nil h⟩

end Sys2Proof.Machine
end

section
/-! What requests make of the tables: the relations between entries, and the chain cap (R2, R153 to R158, R160, R161). -/

namespace Sys2Proof.Machine

/-! ## Stored words -/

/-- A word of another table leaves the Position Table alone. -/
theorem Tables.store_positions (t : Tables) {a : Address} (v : Word) (h : ∀ p w, a ≠ .position p w) :
    (t.store a v).positions = t.positions := by
  unfold Tables.store
  split
  case h_1 p w => exact absurd rfl (h p w)
  all_goals rfl

/-- A word of another table leaves the Calibration Table alone. -/
theorem Tables.store_calibration (t : Tables) {a : Address} (v : Word) (h : ∀ e w, a ≠ .calibration e w) :
    (t.store a v).calibration = t.calibration := by
  unfold Tables.store
  split
  case h_2 e w => exact absurd rfl (h e w)
  all_goals rfl

/-- A word of another table leaves the Global Settings alone. -/
theorem Tables.store_globals (t : Tables) {a : Address} (v : Word) (h : ∀ w, a ≠ .globals w) :
    (t.store a v).globals = t.globals := by
  unfold Tables.store
  split
  case h_7 w => exact absurd rfl (h w)
  all_goals rfl

/-- The tables after words that the checks of a write let pass in mode `m`, one after the other (R153 to R158, R161). -/
inductive Tables.Written (m : Mode) (t : Tables) : Tables → Prop where
  | unwritten : Written m t t
  | word {u : Tables} (h : Written m t u) {a : Address} {v : Word} (hopen : a.writableIn m = true)
      (hrange : inRange a.layout v = true) (hconflict : u.conflict a v = none) : Written m t (u.store a v)

theorem storeWord_tables (s : State) {a : Address} (v : Word) : (s.storeWord a v).tables = s.tables.store a v := by
  unfold State.storeWord
  split <;> rfl

/-- The words of a WRITE_MASKED without a conflict, position by position (R161). -/
theorem written_storeAll {s : State} {w : Fin 4} {v : Word} (hmode : s.mode = .config) (hrange : inRange (positionLayout w) v = true)
    (ps : List Pos) {t : State} (h : s.tables.Written s.mode t.tables) (hconflict : t.tables.maskedConflict w v ps = none) :
    s.tables.Written s.mode (t.storeAll ps w v).tables := by
  induction ps generalizing t with
  | nil => exact h
  | cons p rest ih =>
    rw [Tables.maskedConflict] at hconflict
    split at hconflict
    · cases hconflict
    next hp =>
      have htables := storeWord_tables t (a := .position p w) v
      refine ih (t := t.storeWord (.position p w) v) ?_ (by rwa [htables])
      rw [htables]
      exact h.word (by simp [Address.writableIn, hmode]) hrange hp

theorem serveWrite_written (s : State) (r : RequestRecord) : s.tables.Written s.mode (s.serveWrite r).1.tables := by
  unfold State.serveWrite
  dsimp only
  split
  · exact .unwritten
  split
  · exact .unwritten
  split
  · exact .unwritten
  next hopen =>
    split
    · exact .unwritten
    next hrange =>
      split
      · exact .unwritten
      next hconflict =>
        simp only [State.writeWord, writeEffects_frame, storeWord_tables]
        exact .word .unwritten (by simpa using hopen) (by simpa using hrange) hconflict

theorem serveMasked_written (s : State) (r : RequestRecord) : s.tables.Written s.mode (s.serveMasked r).1.tables := by
  unfold State.serveMasked
  dsimp only
  split
  · exact .unwritten
  split
  · exact .unwritten
  split
  · exact .unwritten
  split
  · exact .unwritten
  next hmode =>
    split
    · exact .unwritten
    split
    · exact .unwritten
    next hrange =>
      split
      · exact .unwritten
      next hconflict =>
        have heffects (t : State) (ps : List Pos) (w : Fin 4) :
            (forEach ps (fun p t => t.writeEffects s (.position p w)) t).tables = t.tables :=
          forEach_keeps State.tables _ _ _ (by simp)
        simp only [writeAll_eq, heffects]
        exact written_storeAll (not_not.mp hmode) (by simpa using hrange) _ .unwritten hconflict

/-- A served request writes the words that its checks let pass, or none. -/
theorem serve_written (s : State) (r : RequestRecord) : s.tables.Written s.mode (s.serve r).1.tables := by
  unfold State.serve
  split
  case h_1 => unfold State.serveRead; (repeat' split) <;> exact .unwritten
  case h_2 => exact serveWrite_written s r
  case h_3 => exact serveMasked_written s r
  case h_4 =>
    unfold State.serveSetMode State.changeToRun State.changeToHold State.changeToConfig
    (repeat' split) <;> simpa using .unwritten
  case h_5 => unfold State.serveStep; dsimp only; (repeat' split) <;> exact .unwritten
  case h_6 => unfold State.serveReidentify; dsimp only; (repeat' split) <;> exact .unwritten
  case h_7 => unfold State.serveReset; (repeat' split) <;> simpa using .unwritten
  case h_8 => exact .unwritten

/-- A promise that the inputs, a discarded request and a served one keep is kept by a received frame; what is served is the request
itself. -/
theorem receive_serves (P : State → Prop) {s : State} (hs : P s)
    (hinputs : ∀ t speed power, P t → P (t.takeInputs speed power)) (hmu : ∀ mu, P { s with mu := mu })
    (hserved : ∀ r, s.mu.service = none → P ((s.serve r).1.serving r (s.serve r).2)) (f : CanFrame) : P (s.receive f) := by
  unfold State.receive State.thenInputs State.takeRequest State.handRequest State.accept
  refine hinputs _ _ _ ?_
  repeat' split
  · exact hmu _
  · exact hmu _
  next hidle _ => exact hserved _ hidle
  · exact hs

/-- Every effect of a row but the resets leaves the tables as the words of a request write them. -/
theorem RowEffect.tables_written {s t : State} (heffect : RowEffect s t) : t.tables = {} ∨ s.tables.Written s.mode t.tables := by
  cases heffect with
  | fresh straps => exact .inl rfl
  | blank power => exact .inl rfl
  | frame f =>
    refine .inr (receive_serves (fun t => s.tables.Written s.mode t.tables) .unwritten ?_ (fun _ => .unwritten) ?_ f)
    · intro t speed power ht
      simpa using ht
    · exact fun r _ => serve_written s r
  | _ => exact .inr (by simpa using .unwritten)

/-- The Global Settings are written in CONFIG alone (R156). -/
theorem Tables.Written.globals_eq {m : Mode} {t u : Tables} (h : t.Written m u) (hmode : m ≠ .config) : u.globals = t.globals := by
  induction h with
  | unwritten => rfl
  | @word u h a v hopen hrange hconflict ih =>
    refine (u.store_globals v fun w ha => ?_).trans ih
    simp [ha, Address.writableIn, hmode] at hopen

/-- A written chain cap is in its range (R157). -/
theorem Tables.Written.capInRange {m : Mode} {t u : Tables} (h : t.Written m u) (ht : CapInRange t) : CapInRange u := by
  induction h with
  | unwritten => exact ht
  | @word u h a v hopen hrange hconflict ih =>
    by_cases ha : ∃ w, a = .globals w
    · obtain ⟨w, rfl⟩ := ha
      by_cases hw : w = 3
      · subst hw
        have hbits : bits v 0 7 = v.toNat := value_of_inRange_single rfl hrange
        obtain ⟨least, most⟩ := (inRange_low (by decide)).mp hrange
        exact ⟨least.trans_eq hbits.symm, hbits.trans_le most⟩
      · have hcap : (u.globals.store w v).read 3 = u.globals.read 3 := by
          rw [GlobalSettings.read_store, if_neg (Ne.symm hw)]
        unfold CapInRange at ih ⊢
        rwa [show (u.store (.globals w) v).globals.chainCap = u.globals.chainCap from hcap]
    · unfold CapInRange at ih ⊢
      rwa [u.store_globals v fun w hw => ha ⟨w, hw⟩]

/-! ## Places (R2) -/

/-- Without a conflict no other position has the station and the place that are written. -/
theorem samePlace_none {t : Tables} {p : Pos} {v : Word} (h : t.samePlace p v = none) {q : Pos} (hq : q ≠ p)
    (hfitted : (stationOf (bits v 0 4)).isSome = true) (hstation : t.positions[q].station = stationOf (bits v 0 4)) :
    t.positions[q].place ≠ Fin.ofNat 4 (bits v 4 2) := by
  obtain ⟨st, hst⟩ := Option.isSome_iff_exists.mp hfitted
  rw [Tables.samePlace, hst] at h
  intro hplace
  have hvalue : t.positions[q].place.val = bits v 4 2 := by
    rw [hplace]
    exact Nat.mod_eq_of_lt (bits_lt v 4 2)
  have hother := List.find?_eq_none.mp h q (mem_allPos q)
  simp only [bne_iff_ne, ne_eq, hq, not_false_eq_true, Bool.and_eq_true, beq_iff_eq, true_and] at hother
  exact hother ⟨hstation.trans hst, hvalue⟩

/-- A written word keeps every fitted position at a place of its own. -/
theorem PlacesDistinct.store {t : Tables} (h : PlacesDistinct t) {a : Address} {v : Word} (hconflict : t.conflict a v = none) :
    PlacesDistinct (t.store a v) := by
  by_cases ha : ∃ p w, a = .position p w
  · obtain ⟨p, w, rfl⟩ := ha
    have hentry (q : Pos) : (t.store (.position p w) v).positions[q] =
        if q = p then t.positions[q].store w v else t.positions[q] := upd_getElem_fin ..
    intro q k hqk
    rw [hentry, hentry]
    by_cases hw : w = 0
    · subst hw
      by_cases hq : q = p
      · subst hq
        rw [if_pos rfl, if_neg (Ne.symm hqk)]
        intro hfitted hstation hplace
        exact samePlace_none hconflict (Ne.symm hqk) hfitted hstation.symm hplace.symm
      · rw [if_neg hq]
        by_cases hk : k = p
        · subst hk
          rw [if_pos rfl]
          intro hfitted hstation
          exact samePlace_none hconflict hq (by rwa [hstation] at hfitted) hstation
        · rw [if_neg hk]
          exact h q k hqk
    · have hkept (e : PositionEntry) : (e.store w v).station = e.station ∧ (e.store w v).place = e.place := by
        unfold PositionEntry.store
        split
        · exact absurd rfl hw
        all_goals exact ⟨rfl, rfl⟩
      have hsame (c : Prop) [Decidable c] (e : PositionEntry) :
          (if c then e.store w v else e).station = e.station ∧ (if c then e.store w v else e).place = e.place := by
        split
        · exact hkept e
        · exact ⟨rfl, rfl⟩
      rw [(hsame _ _).1, (hsame _ _).1, (hsame _ _).2, (hsame _ _).2]
      exact h q k hqk
  · unfold PlacesDistinct at h ⊢
    rwa [t.store_positions v fun p w hw => ha ⟨p, w, hw⟩]

/-! ## Airbag-relevant positions (R2) -/

/-- One position apart, a selection of the positions loses one of them at most. -/
theorem length_filter_le_others (test : Pos → Bool) (p : Pos) :
    (allPos.filter test).length ≤ (allPos.filter fun q => q != p && test q).length + 1 := by
  have hnodup : (allPos.filter test).Nodup := List.Nodup.filter _ (by decide)
  have herase : (allPos.filter test).erase p = allPos.filter fun q => q != p && test q := by
    rw [hnodup.erase_eq_filter, List.filter_filter]
  rw [← herase, List.length_erase]
  split <;> omega

/-- A written flag leaves at most two positions airbag-relevant. -/
theorem airbagPositions_store {t : Tables} (h : t.airbagPositions.length ≤ 2) {a : Address} {v : Word}
    (hconflict : t.conflict a v = none) : (t.store a v).airbagPositions.length ≤ 2 := by
  by_cases ha : ∃ p, a = .position p 3
  · obtain ⟨p, rfl⟩ := ha
    have hentry (q : Pos) : (t.store (.position p 3) v).positions[q].airbag =
        if q = p then bits v 0 1 == 1 else t.positions[q].airbag := by
      rw [show (t.store (.position p 3) v).positions[q] = _ from upd_getElem_fin ..]
      split <;> rfl
    by_cases hbit : bits v 0 1 = 1
    · have hothers : (t.store (.position p 3) v).airbagPositions.length ≤ 1 + 1 := by
        refine (length_filter_le_others _ p).trans (Nat.add_le_add_right ?_ 1)
        have hsame : (allPos.filter fun q => q != p && (t.store (.position p 3) v).positions[q].airbag) =
            allPos.filter fun q => q != p && t.positions[q].airbag := by
          refine List.filter_congr fun q _ => ?_
          rw [hentry]
          by_cases hq : q = p <;> simp [hq]
        rw [hsame]
        change t.thirdAirbag p v = none at hconflict
        unfold Tables.thirdAirbag at hconflict
        split at hconflict
        · simp [hbit] at hconflict
        next hshort =>
          match hlist : allPos.filter fun q => q != p && t.positions[q].airbag with
          | [] | [_] => simp
          | b :: c :: rest => exact absurd hlist (hshort b c rest)
      exact hothers
    · refine (List.monotone_filter_right _ fun q => ?_).length_le.trans h
      rw [hentry]
      split <;> simp [hbit]
  · have hkept (q : Pos) : (t.store a v).positions[q].airbag = t.positions[q].airbag := by
      by_cases hp : ∃ p w, a = .position p w
      · obtain ⟨p, w, rfl⟩ := hp
        rw [show (t.store (.position p w) v).positions[q] = _ from upd_getElem_fin ..]
        split
        · exact PositionEntry.store_airbag _ v fun hw => ha ⟨p, by rw [hw]⟩
        · rfl
      · rw [t.store_positions v fun p w hw => hp ⟨p, w, hw⟩]
    rwa [airbagPositions_eq hkept]

/-! ## Node ids (R158) -/

/-- A written word keeps the node ids of the Calibration Table apart. -/
theorem NodesDistinct.store {t : Tables} (h : NodesDistinct t) {a : Address} {v : Word} (hconflict : t.conflict a v = none) :
    NodesDistinct (t.store a v) := by
  by_cases ha : ∃ e w, a = .calibration e w
  · obtain ⟨p, w, rfl⟩ := ha
    have hentry (q : Fin 16) : (t.store (.calibration p w) v).calibration[q] =
        if q = p then t.calibration[q].store w v else t.calibration[q] := upd_getElem_fin ..
    intro q k hqk
    rw [hentry, hentry]
    by_cases hw : w = 0
    · subst hw
      change t.sameNode p v = none at hconflict
      have hstored (e : CalibrationEntry) : (e.store 0 v).nodeId = byteOf (bits v 0 8) := rfl
      have hvalue : (byteOf (bits v 0 8)).toNat = bits v 0 8 := Nat.mod_eq_of_lt (bits_lt v 0 8)
      have hother (j : Fin 16) (hj : j ≠ p) (hne : byteOf (bits v 0 8) ≠ 0) : t.calibration[j].nodeId ≠ byteOf (bits v 0 8) := by
        have hbits : bits v 0 8 ≠ 0 := fun hzero => hne (by rw [hzero]; rfl)
        rw [Tables.sameNode, if_neg hbits] at hconflict
        intro hnode
        have hdiffers := List.find?_eq_none.mp hconflict j (mem_allPos j)
        simp only [bne_iff_ne, ne_eq, hj, not_false_eq_true, Bool.and_eq_true, beq_iff_eq, true_and] at hdiffers
        exact hdiffers (by rw [hnode, hvalue])
      by_cases hq : q = p
      · subst hq
        rw [if_pos rfl, if_neg (Ne.symm hqk), hstored]
        exact fun hne => (hother k (Ne.symm hqk) hne).symm
      · rw [if_neg hq]
        by_cases hk : k = p
        · subst hk
          rw [if_pos rfl, hstored]
          exact fun hne hnode => hother q hq (hnode ▸ hne) hnode
        · rw [if_neg hk]
          exact h q k hqk
    · have hkept (e : CalibrationEntry) : (e.store w v).nodeId = e.nodeId := by
        unfold CalibrationEntry.store
        rw [if_neg fun hval : w.val = 0 => hw (Fin.ext hval)]
        split <;> rfl
      have hsame (c : Prop) [Decidable c] (e : CalibrationEntry) : (if c then e.store w v else e).nodeId = e.nodeId := by
        split
        · exact hkept e
        · rfl
      rw [hsame, hsame]
      exact h q k hqk
  · unfold NodesDistinct at h ⊢
    rwa [t.store_calibration v fun e w hw => ha ⟨e, w, hw⟩]

/-! ## The statement -/

/-- The relations between the entries of the tables, apart from the rest of the part (R2, R158). -/
def Tables.Consistent (t : Tables) : Prop := PlacesDistinct t ∧ t.airbagPositions.length ≤ 2 ∧ NodesDistinct t

theorem tablesSound_iff (s : State) : TablesSound s ↔ s.tables.Consistent := Iff.rfl

/-- The default tables: no position is fitted or airbag-relevant, and every node id is 0. -/
theorem consistent_default : ({} : Tables).Consistent := by
  refine ⟨fun p q _ hfitted => ?_, ?_, fun e k _ hnode => ?_⟩
  · simp at hfitted
  · decide
  · simp at hnode

theorem Tables.Written.consistent {m : Mode} {t u : Tables} (h : t.Written m u) (ht : t.Consistent) : u.Consistent := by
  induction h with
  | unwritten => exact ht
  | word h hopen hrange hconflict ih =>
    obtain ⟨hplaces, hairbags, hnodes⟩ := ih
    exact ⟨hplaces.store hconflict, airbagPositions_store hairbags hconflict, hnodes.store hconflict⟩

/-- Settles O54: whatever the checks of a write let pass keeps the three relations. -/
theorem everyStepKeepsTheTablesConsistent : Obligations.EveryStepKeepsTheTablesConsistent := by
  intro s t hs hstep
  refine step_induction (fun s => s.tables.Consistent) (fun _ _ h => h) (fun u v heffect hu => ?_) hs hstep
  rcases heffect.tables_written with hdefault | hwritten
  · rw [hdefault]
    exact consistent_default
  · exact hwritten.consistent hu

end Sys2Proof.Machine
end

section
/-! What the Station Manager's operations and the slot visits make of SM: the record of one station, never the routing (R3, R5 to R11,
R41). -/

namespace Sys2Proof.Machine

/-! ## The record of a station -/

/-- A change of a station's record touches no other record, and not the routing. -/
theorem setNode_sm (s : State) (st : Station) (f : Node → Node) :
    (s.setNode st f).sm = { s.sm with nodes := upd s.sm.nodes st f } := rfl

/-- A calibration lookup writes the index of the station's record, and nothing else of SM (R13). -/
theorem lookupCalibration_sm (s : State) (st : Station) :
    (s.lookupCalibration st).sm =
      { s.sm with nodes := upd s.sm.nodes st fun n => { n with calIndex := s.tables.findCalibration s.sm.nodes[st].nodeId } } :=
  forEach_keeps State.sm _ _ _ (by simp)

/-- An activation writes the station's record, and nothing else of SM (R5). -/
theorem activate_sm (s : State) (st : Station) (node : Byte) (places l : Nat) :
    (s.activate st node places l).sm = { s.sm with nodes := upd s.sm.nodes st fun n => { n with
      state := .active, nodeId := node, places := places, misses := 0, latency := l, hopReported := false,
      calIndex := s.tables.findCalibration node } } := by
  simp only [State.activate, reviewDefaultCal_frame, placeCheck_frame, reportCalMissing_frame, activationEvent_frame,
    lookupCalibration_sm, setNode_frame, setNode_sm, upd_at, upd_upd]
  rfl

/-- A seat change writes the station's record, and nothing else of SM (R11). -/
theorem seatChange_sm (s : State) (st : Station) (node : Byte) (places l : Nat) :
    (s.seatChange st node places l).sm = { s.sm with nodes := upd s.sm.nodes st fun n => { n with
      nodeId := node, places := places, misses := 0, latency := l, hopReported := false,
      calIndex := s.tables.findCalibration node } } := by
  simp only [State.seatChange, reviewDefaultCal_frame, placeCheck_frame, reportCalMissing_frame, stationEvent_frame,
    lookupCalibration_sm, setNode_frame, setNode_sm, flushStation_frame, upd_at, upd_upd]
  rfl

/-- A link loss makes the station LINK_LOST, and nothing else of SM (R10). -/
theorem linkLoss_sm (s : State) (st : Station) :
    (s.linkLoss st).sm = { s.sm with nodes := upd s.sm.nodes st fun n => { n with state := .linkLost } } := by
  have hquality (t : State) : (forEach (t.routedPositions st) (fun p u => u.setQuality p fun q => { q with linkDown := true }) t).sm
      = t.sm := forEach_keeps State.sm _ _ t (by simp)
  simp only [State.linkLoss, stationEvent_frame, hquality, flushStation_frame, setNode_sm]

/-! ## The routing -/

section
variable (s : State)

@[simp] theorem setNode_routing (st : Station) (f : Node → Node) : (s.setNode st f).sm.routing = s.sm.routing := rfl

@[simp] theorem activate_routing (st : Station) (node : Byte) (places l : Nat) :
    (s.activate st node places l).sm.routing = s.sm.routing := by rw [activate_sm]

@[simp] theorem seatChange_routing (st : Station) (node : Byte) (places l : Nat) :
    (s.seatChange st node places l).sm.routing = s.sm.routing := by rw [seatChange_sm]

@[simp] theorem miss_routing (st : Station) : (s.miss st).sm.routing = s.sm.routing := by
  unfold State.miss
  dsimp only
  split
  · rw [linkLoss_sm, setNode_routing]
  · rfl

@[simp] theorem noteHop_routing (st : Station) (l : Nat) : (s.noteHop st l).sm.routing = s.sm.routing := by
  unfold State.noteHop
  dsimp only
  split <;> simp

@[simp] theorem takeOutcome_routing (st : Station) (kind : PollKind) (l : Nat) (o : ReplyOutcome) :
    (s.takeOutcome st kind l o).sm.routing = s.sm.routing := by
  unfold State.takeOutcome State.identifyActive State.sampleActive
  dsimp only
  (repeat' split) <;> simp

@[simp] theorem deliver_routing (p : Poll) (o : ReplyOutcome) : (s.deliver p o).sm.routing = s.sm.routing :=
  takeOutcome_routing ..

@[simp] theorem takeStartBit_routing (p : Poll) (c : Nat) : (s.takeStartBit p c).sm.routing = s.sm.routing := by
  unfold State.takeStartBit
  dsimp only
  (repeat' split) <;> simp

@[simp] theorem readByte_routing (p : Poll) : (s.readByte p).sm.routing = s.sm.routing := by
  unfold State.readByte
  dsimp only
  (repeat' split) <;> simp

@[simp] theorem sendPoll_routing (p : Poll) : (s.sendPoll p).sm.routing = s.sm.routing := rfl

@[simp] theorem slotVisit_routing : s.slotVisit.sm.routing = s.sm.routing := by
  unfold State.slotVisit State.visitStation State.openSlot
  dsimp only
  (repeat' split) <;> simp

@[simp] theorem takeSlotStart_routing : s.takeSlotStart.sm.routing = s.sm.routing := by
  unfold State.takeSlotStart State.decideSlot
  (repeat' split) <;> simp

@[simp] theorem goOn_routing : s.goOn.sm.routing = s.sm.routing := by
  unfold State.goOn State.beginStep
  dsimp only
  (repeat' split) <;> simp

end

end Sys2Proof.Machine
end

section
/-! The buckets of the Sample Store: in which list each of them stands, and what an operation of SS makes of the lists (R49 to R54,
R62 to R64). -/

namespace Sys2Proof.Machine

namespace SampleStore

/-! ## Lists of buckets -/

/-- The bucket that bucket `b` names (R49). -/
def link (ss : SampleStore) (b : BucketNo) : BucketNo := ss.buckets[b].next

/-- The links `next` lead from `b` through the buckets of a list, the last of which names bucket 0; an empty list begins at
bucket 0 (R50, R51). -/
def LinkedFrom (next : BucketNo → BucketNo) : BucketNo → List BucketNo → Prop
  | b, [] => b = 0
  | b, x :: xs => b = x ∧ LinkedFrom next (next x) xs

theorem LinkedFrom.congr {next later : BucketNo → BucketNo} {b : BucketNo} {xs : List BucketNo} (h : LinkedFrom next b xs)
    (hsame : ∀ x ∈ xs, later x = next x) : LinkedFrom later b xs := by
  induction xs generalizing b with
  | nil => exact h
  | cons x xs ih =>
    obtain ⟨hb, hrest⟩ := h
    refine ⟨hb, ?_⟩
    rw [hsame x List.mem_cons_self]
    exact ih hrest fun y hy => hsame y (List.mem_cons_of_mem x hy)

/-- A bucket that joins a list at its tail: the tail names it, and it names bucket 0. -/
theorem LinkedFrom.concat {next later : BucketNo → BucketNo} {b tail new : BucketNo} {xs : List BucketNo}
    (h : LinkedFrom next b xs) (hnodup : xs.Nodup) (htail : xs.getLast? = some tail) (hlink : later tail = new)
    (hnew : later new = 0) (hsame : ∀ x ∈ xs, x ≠ tail → later x = next x) : LinkedFrom later b (xs ++ [new]) := by
  induction xs generalizing b with
  | nil => cases htail
  | cons x xs ih =>
    obtain ⟨hb, hrest⟩ := h
    obtain ⟨hx, hnodup⟩ := List.nodup_cons.mp hnodup
    cases xs with
    | nil =>
      obtain rfl : x = tail := by simpa using htail
      exact ⟨hb, hlink, hnew⟩
    | cons y ys =>
      have hlast : (y :: ys).getLast? = some tail := by simpa using htail
      have hne : x ≠ tail := fun e => hx (e ▸ List.mem_of_getLast? hlast)
      refine ⟨hb, ?_⟩
      rw [hsame x List.mem_cons_self hne]
      exact ih hrest hnodup hlast fun z hz => hsame z (List.mem_cons_of_mem x hz)

theorem LinkedFrom.walk_eq {ss : SampleStore} {b : BucketNo} {xs : List BucketNo} (h : LinkedFrom ss.link b xs) :
    ss.walk b xs.length = xs := by
  induction xs generalizing b with
  | nil => rfl
  | cons x xs ih =>
    obtain ⟨rfl, hrest⟩ := h
    exact congrArg (b :: ·) (ih hrest)

theorem LinkedFrom.link_last {next : BucketNo → BucketNo} {b l : BucketNo} {xs : List BucketNo} (h : LinkedFrom next b xs)
    (hl : xs.getLast? = some l) : next l = 0 := by
  induction xs generalizing b with
  | nil => cases hl
  | cons x xs ih =>
    cases xs with
    | nil =>
      obtain rfl : x = l := by simpa using hl
      exact h.2
    | cons y ys => exact ih h.2 (by simpa using hl)

theorem linkedFrom_walk {ss : SampleStore} {b : BucketNo} {n : Nat} (hempty : n = 0 → b = 0)
    (hlast : ∀ l, (ss.walk b n).getLast? = some l → ss.link l = 0) : LinkedFrom ss.link b (ss.walk b n) := by
  induction n generalizing b with
  | zero => exact hempty rfl
  | succ n ih =>
    refine ⟨rfl, ih (fun hn => ?_) fun l hl => hlast l ?_⟩
    · subst hn
      exact hlast b rfl
    · change (b :: ss.walk (ss.link b) n).getLast? = some l
      rw [List.getLast?_cons, hl]
      rfl

/-! ## What a store holds -/

/-- The free list of a store and its chains, bucket by bucket: `free` are the buckets of the free list, and `held p` those of the
chain of `p`, oldest first (R50, R51). -/
structure Holds (ss : SampleStore) (free : List BucketNo) (held : Pos → List BucketNo) : Prop where
  freeLinked : LinkedFrom ss.link ss.freeHead free
  freeLen : ss.freeLen = free.length
  chainLinked : ∀ p : Pos, LinkedFrom ss.link ss.chains[p].head (held p)
  len : ∀ p : Pos, ss.chains[p].len = (held p).length
  tail : ∀ p : Pos, ss.chains[p].tail = (held p).getLast?.getD 0
  each : List.Perm (free ++ allPos.flatMap held) ((List.finRange 256).drop 1)

/-- The links of a store are sound when it holds some lists. -/
theorem bucketsLinked_iff {ss : SampleStore} : BucketsLinked ss ↔ ∃ free held, ss.Holds free held := by
  constructor
  · rintro ⟨heach, hfree, hempty, hchains⟩
    refine ⟨ss.freeBuckets, ss.chainBuckets, linkedFrom_walk hempty hfree, (walk_length ..).symm, fun p => ?_,
      fun p => (walk_length ..).symm, fun p => ?_, heach⟩
    · obtain ⟨hlast, hnone⟩ := hchains p
      exact linkedFrom_walk (fun h => (hnone h).1) fun l hl => (hlast l hl).2
    · obtain ⟨hlast, hnone⟩ := hchains p
      cases hl : (ss.chainBuckets p).getLast? with
      | some l => exact (hlast l hl).1
      | none =>
        have hlen : ss.chains[p].len = 0 := by
          have hlength := walk_length ss ss.chains[p].head ss.chains[p].len
          rw [show ss.walk ss.chains[p].head ss.chains[p].len = [] from List.getLast?_eq_none_iff.mp hl] at hlength
          exact hlength.symm
        exact (hnone hlen).2
  · rintro ⟨free, held, h⟩
    have hfree : ss.freeBuckets = free := by
      unfold freeBuckets
      rw [h.freeLen, h.freeLinked.walk_eq]
    have hheld : ss.chainBuckets = held := by
      funext p
      unfold chainBuckets
      rw [h.len, (h.chainLinked p).walk_eq]
    refine ⟨by rw [hfree, hheld]; exact h.each, fun b hb => ?_, fun h0 => ?_, fun p => ⟨fun b hb => ?_, fun h0 => ?_⟩⟩
    · exact h.freeLinked.link_last (hfree ▸ hb)
    · have hlinked := h.freeLinked
      rwa [List.eq_nil_of_length_eq_zero (h.freeLen.symm.trans h0)] at hlinked
    · rw [hheld] at hb
      exact ⟨by rw [h.tail, hb]; rfl, (h.chainLinked p).link_last hb⟩
    · have hnil : held p = [] := List.eq_nil_of_length_eq_zero ((h.len p).symm.trans h0)
      have hlinked := h.chainLinked p
      have htail := h.tail p
      rw [hnil] at hlinked htail
      exact ⟨hlinked, htail⟩

/-- The buckets of one chain, and those of the others. -/
theorem flatMap_perm (held : Pos → List BucketNo) (p : Pos) :
    List.Perm (allPos.flatMap held) (held p ++ (allPos.erase p).flatMap held) :=
  (List.perm_cons_erase (mem_allPos p)).flatMap_right held

theorem mem_others {p q : Pos} (h : q ≠ p) : q ∈ allPos.erase p := (List.mem_erase_of_ne h).mpr (mem_allPos q)

/-- Where buckets move between the free list and one chain, each bucket still stands in one list. -/
theorem each_of_move {free later : List BucketNo} {held moved : Pos → List BucketNo} {p : Pos}
    (hothers : ∀ q, q ≠ p → moved q = held q) (hmove : List.Perm (later ++ moved p) (free ++ held p)) :
    List.Perm (later ++ allPos.flatMap moved) (free ++ allPos.flatMap held) := by
  have hrest : (allPos.erase p).flatMap moved = (allPos.erase p).flatMap held :=
    List.flatMap_congr fun q hq => hothers q fun e => by
      subst e
      exact (List.Nodup.not_mem_erase (by decide)) hq
  have hmoved := (flatMap_perm moved p).append_left later
  have hheld := (flatMap_perm held p).append_left free
  rw [hrest, ← List.append_assoc] at hmoved
  rw [← List.append_assoc] at hheld
  exact hmoved.trans ((hmove.append_right _).trans hheld.symm)

section
variable {ss : SampleStore} {free : List BucketNo} {held : Pos → List BucketNo} (h : ss.Holds free held)
include h

/-- No bucket stands twice in the lists. -/
theorem Holds.nodup (p : Pos) : (free ++ (held p ++ (allPos.erase p).flatMap held)).Nodup := by
  have hall : (free ++ allPos.flatMap held).Nodup := h.each.nodup_iff.mpr ((List.nodup_finRange 256).sublist (List.drop_sublist _ _))
  exact ((flatMap_perm held p).append_left free).nodup_iff.mp hall

/-- A bucket of a chain stands in no other list. -/
theorem Holds.apart {p : Pos} {b : BucketNo} (hb : b ∈ held p) : b ∉ free ∧ ∀ q, q ≠ p → b ∉ held q := by
  obtain ⟨-, hchains, hfree⟩ := List.nodup_append.mp (h.nodup p)
  obtain ⟨-, -, hothers⟩ := List.nodup_append.mp hchains
  refine ⟨fun hmem => hfree b hmem b (List.mem_append_left _ hb) rfl, fun q hq hmem => ?_⟩
  exact hothers b hb b (List.mem_flatMap_of_mem (mem_others hq) hmem) rfl

/-- A free bucket stands in no chain. -/
theorem Holds.free_apart {b : BucketNo} (hb : b ∈ free) (p : Pos) : b ∉ held p := fun hmem => (h.apart hmem).1 hb

theorem Holds.nodup_chain (p : Pos) : (held p).Nodup := (h.nodup p).of_append_right.of_append_left

theorem Holds.nodup_free : free.Nodup := (h.nodup 0).of_append_left

end

/-! ## The operations -/

/-- The lists stand: every link, the ends of the free list, and every chain, but that an empty chain may have had its ends cleared. -/
def SameLinks (ss tt : SampleStore) : Prop :=
  tt.buckets = ss.buckets ∧ tt.freeHead = ss.freeHead ∧ tt.freeLen = ss.freeLen ∧
  ∀ p : Pos, tt.chains[p].len = ss.chains[p].len ∧
    (tt.chains[p].head = ss.chains[p].head ∧ tt.chains[p].tail = ss.chains[p].tail ∨
      ss.chains[p].len = 0 ∧ tt.chains[p].head = 0 ∧ tt.chains[p].tail = 0)

theorem Holds.sameLinks {ss tt : SampleStore} {free : List BucketNo} {held : Pos → List BucketNo} (h : ss.Holds free held)
    (hsame : ss.SameLinks tt) : tt.Holds free held := by
  obtain ⟨hbuckets, hhead, hlen, hchains⟩ := hsame
  have hlink : tt.link = ss.link := by
    funext b
    simp only [link, hbuckets]
  refine ⟨by rw [hlink, hhead]; exact h.freeLinked, hlen.trans h.freeLen, fun p => ?_, fun p => (hchains p).1.trans (h.len p),
    fun p => ?_, h.each⟩
  · rcases (hchains p).2 with ⟨hsame, -⟩ | ⟨hempty, hzero, -⟩
    · rw [hlink, hsame]
      exact h.chainLinked p
    · rw [hzero, List.eq_nil_of_length_eq_zero ((h.len p).symm.trans hempty)]
      rfl
  · rcases (hchains p).2 with ⟨-, hsame⟩ | ⟨hempty, -, hzero⟩
    · rw [hsame]
      exact h.tail p
    · rw [hzero, List.eq_nil_of_length_eq_zero ((h.len p).symm.trans hempty)]
      rfl

/-- The links after the oldest bucket of a chain is returned (R50). -/
theorem link_returnHead {ss : SampleStore} {p : Pos} (h : ss.chains[p].len ≠ 0) (b : BucketNo) :
    (ss.returnHead p).link b = if b = ss.chains[p].head then ss.freeHead else ss.link b := by
  unfold returnHead
  simp only [h, if_false]
  unfold link
  split <;> (simp only [push]; rw [upd_getElem_fin]; split <;> rfl)

/-- The oldest bucket of a chain is returned: it moves from the chain to the head of the free list (R50, R51). -/
theorem Holds.returnHead {ss : SampleStore} {free rest : List BucketNo} {held : Pos → List BucketNo} {p : Pos} {b : BucketNo}
    (h : ss.Holds free held) (hp : held p = b :: rest) : (ss.returnHead p).Holds (b :: free) (Function.update held p rest) := by
  obtain ⟨hlen, hfreeLen, -, -, hothers⟩ := ss.returnHead_does p
  have hfilled : ss.chains[p].len = rest.length + 1 := by rw [h.len, hp]; rfl
  have hne : ss.chains[p].len ≠ 0 := by omega
  obtain ⟨hhead, hrest⟩ : ss.chains[p].head = b ∧ LinkedFrom ss.link (ss.link b) rest := by
    have hlinked := h.chainLinked p
    rwa [hp] at hlinked
  have hlink (x : BucketNo) : (ss.returnHead p).link x = if x = b then ss.freeHead else ss.link x := by
    rw [link_returnHead hne, hhead]
  have hkept {c : BucketNo} {xs : List BucketNo} (hlinked : LinkedFrom ss.link c xs) (hb : b ∉ xs) :
      LinkedFrom (ss.returnHead p).link c xs :=
    hlinked.congr fun x hx => (hlink x).trans (if_neg fun e : x = b => hb (e ▸ hx))
  have hmem : b ∈ held p := by rw [hp]; exact List.mem_cons_self
  obtain ⟨hbfree, hbothers⟩ := h.apart hmem
  have hbrest : b ∉ rest := (List.nodup_cons.mp (hp ▸ h.nodup_chain p)).1
  obtain ⟨hfreeHead, hchainHead, hchainTail⟩ : (ss.returnHead p).freeHead = b ∧ (ss.returnHead p).chains[p].head = ss.link b ∧
      (ss.returnHead p).chains[p].tail = rest.getLast?.getD 0 := by
    have htail := h.tail p
    unfold SampleStore.returnHead
    simp only [hne, if_false]
    split
    next hone =>
      obtain rfl : rest = [] := List.eq_nil_of_length_eq_zero (by omega)
      have hzero : ss.link b = 0 := hrest
      exact ⟨hhead, by simp [hzero], by simp⟩
    next hmore =>
      rw [hp] at htail
      refine ⟨hhead, by rw [← hhead]; simp [link], ?_⟩
      cases rest with
      | nil => exact absurd hfilled (by simpa using hmore)
      | cons y ys => simpa using htail
  refine ⟨⟨hfreeHead, ?_⟩, ?_, fun q => ?_, fun q => ?_, fun q => ?_, ?_⟩
  · rw [hlink, if_pos rfl]
    exact hkept h.freeLinked hbfree
  · rw [hfreeLen, h.freeLen, if_neg hne]
    rfl
  · by_cases hq : q = p
    · subst hq
      rw [Function.update_self, hchainHead]
      exact hkept hrest hbrest
    · rw [Function.update_of_ne hq, hothers q hq]
      exact hkept (h.chainLinked q) (hbothers q hq)
  · by_cases hq : q = p
    · subst hq
      rw [Function.update_self, hlen]
      omega
    · rw [Function.update_of_ne hq, hothers q hq]
      exact h.len q
  · by_cases hq : q = p
    · subst hq
      rw [Function.update_self, hchainTail]
    · rw [Function.update_of_ne hq, hothers q hq]
      exact h.tail q
  · refine (each_of_move (p := p) (fun q hq => Function.update_of_ne hq ..) ?_).trans h.each
    rw [Function.update_self, hp]
    exact List.perm_middle.symm

/-- The links after a sample is stored (R50, R52). -/
theorem link_store (ss : SampleStore) (p : Pos) (x : PlaceSample) (now : Time) (b : BucketNo) :
    (ss.store p x now).link b =
      if ss.chains[p].len ≠ 0 ∧ b = ss.chains[p].tail then ss.freeHead else if b = ss.freeHead then 0 else ss.link b := by
  have hset (c : BucketNo) : (ss.buckets.set ss.freeHead (filledBucket x now))[c].next = if c = ss.freeHead then 0 else ss.link c := by
    rw [set_getElem_fin]
    split <;> rfl
  unfold store link
  by_cases hempty : ss.chains[p].len = 0
  · simp only [hempty, if_true, ne_eq, not_true_eq_false, false_and, if_false]
    exact hset b
  · simp only [hempty, if_false, ne_eq, not_false_eq_true, true_and]
    rw [upd_getElem_fin]
    split
    · rfl
    · exact hset b

/-- A stored sample takes the head of the free list, which becomes the tail of the chain (R50, R52). -/
theorem Holds.store {ss : SampleStore} {free : List BucketNo} {held : Pos → List BucketNo} {b : BucketNo}
    (h : ss.Holds (b :: free) held) (p : Pos) (x : PlaceSample) (now : Time) :
    (ss.store p x now).Holds free (Function.update held p (held p ++ [b])) := by
  obtain ⟨hfreeLen, hfreeHead, -, hp, hothers, -⟩ := ss.store_does p x now
  obtain ⟨hhead, hfree⟩ : ss.freeHead = b ∧ LinkedFrom ss.link (ss.link b) free := h.freeLinked
  obtain ⟨hbfree, -⟩ := List.nodup_cons.mp h.nodup_free
  have hbheld (q : Pos) : b ∉ held q := h.free_apart List.mem_cons_self q
  have hempty : ss.chains[p].len = 0 ↔ held p = [] := by rw [h.len, List.length_eq_zero_iff]
  have htail (hne : held p ≠ []) : (held p).getLast? = some ss.chains[p].tail := by
    rw [h.tail, List.getLast?_eq_getLast_of_ne_nil hne]
    rfl
  have hlink (c : BucketNo) (hc : held p ≠ [] → c ≠ ss.chains[p].tail) (hb : c ≠ b) : (ss.store p x now).link c = ss.link c := by
    rw [link_store, if_neg fun hcase => hc (fun e => hcase.1 (hempty.mpr e)) hcase.2, hhead, if_neg hb]
  have hkept {c : BucketNo} {xs : List BucketNo} (hlinked : LinkedFrom ss.link c xs) (hb : b ∉ xs)
      (hxs : ∀ y ∈ xs, y ∉ held p) : LinkedFrom (ss.store p x now).link c xs :=
    hlinked.congr fun y hy => hlink y (fun hne e => hxs y hy (e ▸ List.mem_of_getLast? (htail hne))) fun e => hb (e ▸ hy)
  refine ⟨?_, ?_, fun q => ?_, fun q => ?_, fun q => ?_, ?_⟩
  · rw [hfreeHead, show ss.buckets[ss.freeHead].next = ss.link b from congrArg ss.link hhead]
    exact hkept hfree hbfree fun y hy => h.free_apart (List.mem_cons_of_mem b hy) p
  · rw [hfreeLen, h.freeLen]
    rfl
  · by_cases hq : q = p
    · subst hq
      have hnew : (ss.store q x now).link b = 0 := by
        rw [link_store, hhead, if_pos rfl, if_neg]
        rintro ⟨hne, hb⟩
        exact hbheld q (hb ▸ List.mem_of_getLast? (htail fun e => hne (hempty.mpr e)))
      rw [Function.update_self, hp]
      dsimp only
      by_cases hnil : held q = []
      · rw [if_pos (hempty.mpr hnil), hnil, hhead]
        exact ⟨rfl, hnew⟩
      · rw [if_neg fun e => hnil (hempty.mp e)]
        refine (h.chainLinked q).concat (h.nodup_chain q) (htail hnil) ?_ hnew fun y hy hne => hlink y (fun _ => hne) fun e => hbheld q (e ▸ hy)
        rw [link_store, if_pos ⟨fun e => hnil (hempty.mp e), rfl⟩, hhead]
    · rw [Function.update_of_ne hq, hothers q hq]
      exact hkept (h.chainLinked q) (hbheld q) fun y hy hmem => (h.apart hmem).2 q hq hy
  · by_cases hq : q = p
    · subst hq
      rw [Function.update_self, hp, List.length_append, ← h.len]
      rfl
    · rw [Function.update_of_ne hq, hothers q hq]
      exact h.len q
  · by_cases hq : q = p
    · subst hq
      rw [Function.update_self, hp, List.getLast?_concat, hhead]
      rfl
    · rw [Function.update_of_ne hq, hothers q hq]
      exact h.tail q
  · refine (each_of_move (p := p) (fun q hq => Function.update_of_ne hq ..) ?_).trans h.each
    rw [Function.update_self, ← List.append_assoc]
    exact List.perm_append_comm

/-! ## The store at its reset state -/

/-- From bucket `k` on the links of a cleared store lead through all higher buckets. -/
theorem linkedFrom_clear (ss : SampleStore) (n : Nat) {k : Nat} (hk : k + n = 256) (hpos : 1 ≤ k) :
    LinkedFrom ss.clear.link (Fin.ofNat 256 k) ((List.finRange 256).drop k) := by
  have hlink (b : BucketNo) : ss.clear.link b = if b = 0 then 0 else b + 1 := by simp [link, clear, linkedInOrder]
  induction n generalizing k with
  | zero =>
    obtain rfl : k = 256 := by omega
    exact rfl
  | succ n ih =>
    have hlt : k < (List.finRange 256).length := by rw [List.length_finRange]; omega
    have hofNat : Fin.ofNat 256 k = (List.finRange 256)[k] := by
      rw [List.getElem_finRange]
      exact Fin.ext (Nat.mod_eq_of_lt (by omega))
    rw [List.drop_eq_getElem_cons hlt, ← hofNat]
    have hne : Fin.ofNat 256 k ≠ 0 := fun e => by
      have hval := congrArg Fin.val e
      simp only [Fin.val_ofNat, Fin.val_zero] at hval
      omega
    have hsucc : (Fin.ofNat 256 k + 1 : BucketNo) = Fin.ofNat 256 (k + 1) := by
      apply Fin.ext
      simp [Fin.val_add]
    refine ⟨rfl, ?_⟩
    rw [hlink, if_neg hne, hsucc]
    exact ih (by omega) (by omega)

/-- SS at its reset state holds every bucket in the free list (R49, R50, R64). -/
theorem holds_clear (ss : SampleStore) : ss.clear.Holds ((List.finRange 256).drop 1) fun _ => [] := by
  refine ⟨linkedFrom_clear ss 255 rfl le_rfl, by simp [clear], fun p => ?_, fun p => ?_, fun p => ?_, ?_⟩
  · simp [clear, LinkedFrom]
  · simp [clear]
  · simp [clear]
  · rw [List.flatMap_eq_nil_iff.mpr fun _ _ => rfl, List.append_nil]

end SampleStore

end Sys2Proof.Machine
end

section
/-! What the part makes of the buckets: they are returned, and stored where a sample finds room (R7, R50 to R54, R59, R62, R63). -/

namespace Sys2Proof.Machine

namespace SampleStore

/-! ## Runs of the operations on the lists -/

/-- What returned buckets, and samples stored where `arrivals` holds, make of a store: each sample finds a free bucket, and a chain
whose length is not the chain cap (R50, R52, R53). -/
inductive Moved (cap : Nat) (arrivals : Prop) (ss : SampleStore) : SampleStore → Prop where
  | start : Moved cap arrivals ss ss
  | marked {tt uu : SampleStore} (h : Moved cap arrivals ss tt) (hsame : tt.SameLinks uu) : Moved cap arrivals ss uu
  | returned {tt : SampleStore} (h : Moved cap arrivals ss tt) (p : Pos) : Moved cap arrivals ss (tt.returnHead p)
  | stored {tt : SampleStore} (h : Moved cap arrivals ss tt) (harrives : arrivals) (p : Pos) (x : PlaceSample) (now : Time)
      (hfree : tt.freeLen ≠ 0) (hroom : tt.chains[p].len ≠ cap) : Moved cap arrivals ss (tt.store p x now)

theorem returnHead_empty {ss : SampleStore} {p : Pos} (h : ss.chains[p].len = 0) : ss.returnHead p = ss := by
  simp only [returnHead, h, if_true]

/-- One chain changes in its marks alone. -/
theorem sameLinks_upd (ss : SampleStore) (p : Pos) {f : Chain → Chain} {queue : List Pos}
    (hf : ∀ c, (f c).len = c.len ∧ (f c).head = c.head ∧ (f c).tail = c.tail) :
    ss.SameLinks { ss with chains := upd ss.chains p f, evalQueue := queue } := by
  refine ⟨rfl, rfl, rfl, fun q => ?_⟩
  dsimp only
  rw [upd_getElem_fin]
  obtain ⟨hlen, hhead, htail⟩ := hf ss.chains[q]
  split
  · exact ⟨hlen, .inl ⟨hhead, htail⟩⟩
  · exact ⟨rfl, .inl ⟨rfl, rfl⟩⟩

section
variable {cap : Nat} {arrivals : Prop} {ss tt : SampleStore} (h : Moved cap arrivals ss tt)
include h

theorem Moved.returnOldest (p : Pos) (n : Nat) : Moved cap arrivals ss (tt.returnOldest p n) := by
  induction n generalizing tt with
  | zero => exact h
  | succ n ih => exact ih (h.returned p)

theorem Moved.schedule (p : Pos) (w : Nat) : Moved cap arrivals ss (tt.schedule p w) := by
  rw [schedule_does]
  split
  · exact h.marked (tt.sameLinks_upd p (f := fun c => { c with scheduled := true }) fun _ => ⟨rfl, rfl, rfl⟩)
  · exact h

theorem Moved.clearFlags (p : Pos) : Moved cap arrivals ss (tt.clearFlags p) :=
  h.marked (tt.sameLinks_upd p fun _ => ⟨rfl, rfl, rfl⟩)

/-- A flush returns every bucket of a chain (R62). -/
theorem Moved.flush (p : Pos) : Moved cap arrivals ss (tt.flush p) := by
  refine (h.returnOldest p tt.chains[p].len).marked ?_
  obtain ⟨hlen, -⟩ := tt.returnOldest_does p tt.chains[p].len
  unfold SampleStore.flush
  dsimp only
  generalize tt.returnOldest p tt.chains[p].len = emptied at hlen ⊢
  have hmarked (c : Chain) (queue : List Pos) (hc : c.len = 0 ∧ c.head = 0 ∧ c.tail = 0) :
      emptied.SameLinks { emptied with chains := emptied.chains.set p c, evalQueue := queue } := by
    refine ⟨rfl, rfl, rfl, fun q => ?_⟩
    dsimp only
    rw [set_getElem_fin]
    split
    next hq =>
      rw [hq]
      exact ⟨by omega, .inr ⟨by omega, hc.2⟩⟩
    · exact ⟨rfl, .inl ⟨rfl, rfl⟩⟩
  split <;> exact hmarked _ _ ⟨rfl, rfl, rfl⟩

/-- A sample that finds room is stored, after the oldest one of a full chain is returned (R53). -/
theorem Moved.displaced (hcap : 0 < cap) (harrives : arrivals) {p : Pos} (hfull : tt.chains[p].len = cap) (x : PlaceSample)
    (now : Time) : Moved cap arrivals ss ((tt.returnHead p).store p x now) := by
  obtain ⟨hlen, hfree, -⟩ := tt.returnHead_does p
  refine (h.returned p).stored harrives p x now ?_ (by omega)
  rw [hfree, if_neg (by omega)]
  omega

end

/-! ## Room for a sample (R53, R54) -/

section
variable {ss : SampleStore} {p : Pos} {cap : Nat}

theorem room_store_iff : ss.room p cap = .store ↔ ss.chains[p].len ≠ cap ∧ ss.freeLen ≠ 0 := by
  unfold room
  dsimp only
  (repeat' split) <;> simp_all

theorem room_displace_iff : ss.room p cap = .displace ↔ ss.chains[p].len = cap ∧ ss.chains[p].underEval = false := by
  unfold room
  dsimp only
  (repeat' split) <;> simp_all

theorem room_drop_iff : ss.room p cap = .drop ↔
    ss.chains[p].len = cap ∧ ss.chains[p].underEval = true ∨ ss.chains[p].len ≠ cap ∧ ss.freeLen = 0 := by
  unfold room
  dsimp only
  (repeat' split) <;> simp_all

end

/-! ## What every run keeps -/

/-- The length of one chain, and of the others together. -/
theorem sum_chains (ss : SampleStore) (p : Pos) :
    (allPos.map fun q => ss.chains[q].len).sum = ss.chains[p].len + ((allPos.erase p).map fun q => ss.chains[q].len).sum :=
  (List.sum_map_erase (fun q : Pos => ss.chains[q].len) (mem_allPos p)).symm

theorem sum_others {ss tt : SampleStore} {p : Pos} (hothers : ∀ q, q ≠ p → tt.chains[q] = ss.chains[q]) :
    ((allPos.erase p).map fun q => tt.chains[q].len).sum = ((allPos.erase p).map fun q => ss.chains[q].len).sum :=
  congrArg List.sum (List.map_congr_left fun q hq => by
    rw [hothers q fun e => (List.Nodup.not_mem_erase (by decide)) (e ▸ hq)])

section
variable {cap : Nat} {arrivals : Prop} {ss tt : SampleStore} (h : Moved cap arrivals ss tt)
include h

/-- The buckets stay accounted for (R50). -/
theorem Moved.accounted (hss : BucketsAccounted ss) : BucketsAccounted tt := by
  unfold BucketsAccounted at hss ⊢
  induction h with
  | start => exact hss
  | @marked tt uu h hsame ih =>
    obtain ⟨-, -, hlen, hchains⟩ := hsame
    rw [hlen, show (fun p : Pos => uu.chains[p].len) = fun p => tt.chains[p].len from funext fun p => (hchains p).1]
    exact ih
  | @returned tt h p ih =>
    obtain ⟨hlen, hfree, -, -, hothers⟩ := tt.returnHead_does p
    have hbefore := tt.sum_chains p
    rw [sum_chains _ p, sum_others hothers, hlen, hfree]
    split <;> omega
  | @stored tt h harrives p x now hfree hroom ih =>
    obtain ⟨hlen, -, -, hp, hothers, -⟩ := tt.store_does p x now
    have hbefore := tt.sum_chains p
    rw [sum_chains _ p, sum_others hothers, hlen, hp]
    dsimp only
    omega

/-- The links stay sound (R50, R51). -/
theorem Moved.linked (hss : BucketsLinked ss) : BucketsLinked tt := by
  induction h with
  | start => exact hss
  | marked h hsame ih =>
    obtain ⟨free, held, hholds⟩ := bucketsLinked_iff.mp ih
    exact bucketsLinked_iff.mpr ⟨free, held, hholds.sameLinks hsame⟩
  | @returned tt h p ih =>
    obtain ⟨free, held, hholds⟩ := bucketsLinked_iff.mp ih
    cases hp : held p with
    | nil =>
      have hempty : tt.chains[p].len = 0 := by rw [hholds.len, hp]; rfl
      rwa [returnHead_empty hempty]
    | cons b rest => exact bucketsLinked_iff.mpr ⟨_, _, hholds.returnHead hp⟩
  | @stored tt h harrives p x now hfree hroom ih =>
    obtain ⟨free, held, hholds⟩ := bucketsLinked_iff.mp ih
    cases free with
    | nil => exact absurd hholds.freeLen hfree
    | cons b free => exact bucketsLinked_iff.mpr ⟨_, _, hholds.store p x now⟩

/-- No chain grows beyond the chain cap (R53). -/
theorem Moved.capped (hss : ∀ p : Pos, ss.chains[p].len ≤ cap) (q : Pos) : tt.chains[q].len ≤ cap := by
  induction h with
  | start => exact hss q
  | marked h hsame ih => exact (hsame.2.2.2 q).1 ▸ ih
  | @returned tt h p ih =>
    obtain ⟨hlen, -, -, -, hothers⟩ := tt.returnHead_does p
    by_cases hq : q = p
    · subst hq
      omega
    · rwa [hothers q hq]
  | @stored tt h harrives p x now hfree hroom ih =>
    obtain ⟨-, -, -, hp, hothers, -⟩ := tt.store_does p x now
    by_cases hq : q = p
    · subst hq
      rw [hp]
      dsimp only
      omega
    · rwa [hothers q hq]

/-- Where no sample arrives, empty chains stay empty. -/
theorem Moved.empty (hnone : ¬ arrivals) (hss : ∀ p : Pos, ss.chains[p].len = 0) (q : Pos) : tt.chains[q].len = 0 := by
  induction h with
  | start => exact hss q
  | marked h hsame ih => exact (hsame.2.2.2 q).1.trans ih
  | @returned tt h p ih =>
    obtain ⟨hlen, -, -, -, hothers⟩ := tt.returnHead_does p
    by_cases hq : q = p
    · subst hq
      omega
    · rwa [hothers q hq]
  | stored h harrives => exact absurd harrives hnone

end

theorem accounted_clear (ss : SampleStore) : BucketsAccounted ss.clear := by
  unfold BucketsAccounted clear
  simp

theorem linked_clear (ss : SampleStore) : BucketsLinked ss.clear := bucketsLinked_iff.mpr ⟨_, _, ss.holds_clear⟩

end SampleStore

end Sys2Proof.Machine
end

section
/-! Flushes of several positions: the chains, the Evaluation Queue and the free list that they leave (R14, R50, R62). -/

namespace Sys2Proof.Machine

/-- Flushes of distinct positions, one after the other. -/
theorem SampleStore.flushes_does (ps : List Pos) (hps : ps.Nodup) (ss : SampleStore) :
    (ps.foldl SampleStore.flush ss).freeLen = ss.freeLen + (ps.map fun q => ss.chains[q].len).sum ∧
    (ps.foldl SampleStore.flush ss).evalQueue =
      ss.evalQueue.filter (fun q => !(decide (q ∈ ps) && ss.chains[q].scheduled && !ss.chains[q].underEval)) ∧
    ∀ q : Pos, (ps.foldl SampleStore.flush ss).chains[q] = if q ∈ ps then flushedChain ss.chains[q] else ss.chains[q] := by
  induction ps generalizing ss with
  | nil => simp
  | cons p ps ih =>
    obtain ⟨hp, hps⟩ := List.nodup_cons.mp hps
    obtain ⟨hchain, hfree, hqueue, hothers⟩ := ss.flush_does p
    obtain ⟨ihfree, ihqueue, ihchains⟩ := ih hps (ss.flush p)
    have hkept (q : Pos) (hq : q ∈ ps) : (ss.flush p).chains[q] = ss.chains[q] := hothers q fun e => hp (e ▸ hq)
    refine ⟨?_, ?_, fun q => ?_⟩
    · rw [List.foldl_cons, ihfree, hfree, List.map_cons, List.sum_cons, Nat.add_assoc]
      exact congrArg (fun l => _ + (_ + List.sum l)) (List.map_congr_left fun q hq => by rw [hkept q hq])
    · have hrest (q : Pos) : (decide (q ∈ ps) && (ss.flush p).chains[q].scheduled && !(ss.flush p).chains[q].underEval) =
          (decide (q ∈ ps) && ss.chains[q].scheduled && !ss.chains[q].underEval) := by
        by_cases hq : q ∈ ps
        · rw [hkept q hq]
        · simp [hq]
      rw [List.foldl_cons, ihqueue, hqueue]
      simp only [hrest]
      split
      next hwaits =>
        rw [List.filter_filter]
        refine List.filter_congr fun q _ => ?_
        by_cases hq : q = p
        · subst hq
          simp only [bne_self_eq_false, Bool.and_false, List.mem_cons_self, decide_true, Bool.true_and, hwaits, Bool.not_true]
        · simp [hq]
      next hstays =>
        refine List.filter_congr fun q _ => ?_
        by_cases hq : q = p
        · subst hq
          simp only [hp, decide_false, Bool.false_and, List.mem_cons_self, decide_true, Bool.true_and, hstays]
        · simp [hq]
    · rw [List.foldl_cons, ihchains]
      by_cases hq : q = p
      · subst hq
        rw [if_neg hp, if_pos List.mem_cons_self, hchain]
        rfl
      · rw [hothers q hq]
        simp [hq]

/-- Flushes of several positions make of SS what its own flushes do. -/
theorem forEach_flush_ss (ps : List Pos) (b : Bool) (s : State) :
    (forEach ps (fun p t => t.flush p b) s).ss = ps.foldl SampleStore.flush s.ss := by
  have hflush (p : Pos) (t : State) : (t.flush p b).ss = t.ss.flush p := by
    unfold State.flush
    dsimp only
    split <;> simp
  unfold forEach
  induction ps generalizing s with
  | nil => rfl
  | cons p ps ih => rw [List.foldl_cons, List.foldl_cons, ih, hflush]

theorem flushAll_ss (s : State) : s.flushAll.ss = allPos.foldl SampleStore.flush s.ss := forEach_flush_ss ..

/-- A flush of every position empties every chain (R62). -/
theorem flushAll_chain (s : State) (q : Pos) : s.flushAll.ss.chains[q] = flushedChain s.ss.chains[q] := by
  rw [flushAll_ss, (SampleStore.flushes_does allPos (by decide) s.ss).2.2, if_pos (mem_allPos q)]

end Sys2Proof.Machine
end

section
/-! Every step keeps the buckets accounted for, each in one list, and the chains within the cap (R3, R50, R51, R53, R63, R157). -/

namespace Sys2Proof.Machine

/-! ## What the blocks make of the buckets -/

section
variable {cap : Nat} {arrivals : Prop} {ss : SampleStore} {s : State} (h : ss.Moved cap arrivals s.ss)
include h

theorem moved_forEach {α : Type} {xs : List α} {f : α → State → State}
    (hf : ∀ x t, ss.Moved cap arrivals t.ss → ss.Moved cap arrivals (f x t).ss) : ss.Moved cap arrivals (forEach xs f s).ss :=
  forEach_induction (fun t => ss.Moved cap arrivals t.ss) xs f s h hf

@[simp] theorem moved_dropSample (p : Pos) : ss.Moved cap arrivals (s.dropSample p).ss := by
  have hlost := h.marked
    (s.ss.sameLinks_upd p (f := fun c => { c with loss := true }) (queue := s.ss.evalQueue) fun _ => ⟨rfl, rfl, rfl⟩)
  unfold State.dropSample
  dsimp only
  split <;> simpa using hlost

@[simp] theorem moved_flush (p : Pos) (b : Bool) : ss.Moved cap arrivals (s.flush p b).ss := by
  have hflushed := h.flush p
  unfold State.flush
  dsimp only
  split <;> simpa using hflushed

@[simp] theorem moved_flushAll : ss.Moved cap arrivals s.flushAll.ss := moved_forEach h fun _ _ ht => moved_flush ht ..

@[simp] theorem moved_flushStation (st : Station) : ss.Moved cap arrivals (s.flushStation st).ss :=
  moved_forEach h fun _ _ ht => moved_flush ht ..

@[simp] theorem moved_clearLosses : ss.Moved cap arrivals s.clearLosses.ss := by
  have hcleared : s.clearLosses.ss = { s.ss with chains := Vector.ofFn fun p => { s.ss.chains[p] with loss := false } } :=
    forEach_keeps State.ss _ _ _ (by simp)
  rw [hcleared]
  exact h.marked ⟨rfl, rfl, rfl, fun p => by simp⟩

@[simp] theorem moved_seatChange (st : Station) (a : Byte) (n l : Nat) : ss.Moved cap arrivals (s.seatChange st a n l).ss := by
  simp [State.seatChange, h]

@[simp] theorem moved_linkLoss (st : Station) : ss.Moved cap arrivals (s.linkLoss st).ss := by
  have hflushed : ss.Moved cap arrivals (State.flushStation (s.setNode st fun n => { n with state := .linkLost }) st).ss := by
    simp [h]
  unfold State.linkLoss
  simpa using moved_forEach hflushed fun p t ht => by simpa using ht

@[simp] theorem moved_miss (st : Station) : ss.Moved cap arrivals (s.miss st).ss := by
  unfold State.miss
  dsimp only
  split <;> simp [h]

@[simp] theorem moved_identifyActive (st : Station) (a : Byte) (n l : Nat) :
    ss.Moved cap arrivals (s.identifyActive st a n l).ss := by
  unfold State.identifyActive
  dsimp only
  split <;> simp [h]

@[simp] theorem moved_enterConfig : ss.Moved cap arrivals s.enterConfig.ss := by
  unfold State.enterConfig
  exact moved_flushAll (by simpa using h)

@[simp] theorem moved_enterRun : ss.Moved cap arrivals s.enterRun.ss := by
  unfold State.enterRun
  simpa using moved_clearLosses (moved_flushAll (s := s.enterMode .run) h)

/-- A valid completion returns the oldest buckets (R59). -/
theorem moved_validCompletion (e : Evaluation) : ss.Moved cap arrivals (s.validCompletion e).ss := by
  have hreturned := h.returnOldest e.pos e.bank.h
  unfold State.validCompletion State.settleLoss
  dsimp only
  split <;> exact (by
    simpa using hreturned.marked (SampleStore.sameLinks_upd _ e.pos (f := fun c => { c with loss := false }) fun _ => ⟨rfl, rfl, rfl⟩))

@[simp] theorem moved_completeEvaluation (e : Evaluation) : ss.Moved cap arrivals (s.completeEvaluation e).ss := by
  unfold State.completeEvaluation
  refine SampleStore.Moved.schedule (SampleStore.Moved.clearFlags ?_ _) ..
  split
  · exact moved_validCompletion h e
  · exact h

theorem moved_takeHead (queue : List Pos) : ss.Moved cap arrivals (s.takeHead queue).ss := by
  induction queue generalizing s with
  | nil => exact h.marked ⟨rfl, rfl, rfl, fun p => ⟨rfl, .inl ⟨rfl, rfl⟩⟩⟩
  | cons p rest ih =>
    cases hfull : s.windowFull p with
    | true =>
      rw [takeHead_full hfull]
      exact h.marked (s.ss.sameLinks_upd p (f := fun c => { c with underEval := true }) fun _ => ⟨rfl, rfl, rfl⟩)
    | false =>
      rw [takeHead_stale hfull]
      exact ih (h.marked (s.ss.sameLinks_upd p (f := fun c => { c with scheduled := false }) fun _ => ⟨rfl, rfl, rfl⟩))

@[simp] theorem moved_startEvaluation : ss.Moved cap arrivals s.startEvaluation.ss := moved_takeHead h _

variable (hpos : 0 < cap) (hcap : s.tables.globals.chainCap = cap)
include hpos hcap

/-- An arriving sample is stored where it finds room (R52 to R54). -/
theorem moved_arrive (harrives : arrivals) (p : Pos) (x : PlaceSample) : ss.Moved cap arrivals (s.arrive p x).ss := by
  unfold State.arrive
  refine SampleStore.Moved.schedule ?_ ..
  rw [hcap]
  split
  next hroom =>
    obtain ⟨hlen, hfree⟩ := SampleStore.room_store_iff.mp hroom
    exact h.stored harrives p x _ hfree hlen
  next hroom => exact h.displaced hpos harrives (SampleStore.room_displace_iff.mp hroom).1 x _
  · exact moved_dropSample h p

variable (hroutes : ∀ (st : Station) (q : Place), s.sm.routing[st][q] ≠ none → arrivals)
include hroutes

/-- The samples of a reply arrive at the positions that the routing names (R7). -/
theorem moved_deliverSamples (st : Station) (xs : List PlaceSample) : ss.Moved cap arrivals (s.deliverSamples st xs).ss := by
  suffices hall : ss.Moved cap arrivals (s.deliverSamples st xs).ss ∧
      (s.deliverSamples st xs).tables = s.tables ∧ (s.deliverSamples st xs).sm = s.sm from hall.1
  refine forEach_induction (fun t => ss.Moved cap arrivals t.ss ∧ t.tables = s.tables ∧ t.sm = s.sm) _ _ s ⟨h, rfl, rfl⟩ ?_
  rintro ⟨q, x⟩ t ⟨ht, htables, hsm⟩
  dsimp only
  split
  next p hp =>
    have harrives : arrivals := hroutes st q (by rw [← hsm, hp]; simp)
    refine ⟨?_, by simp [htables], by simp [hsm]⟩
    simpa using moved_arrive ht hpos (by rw [htables, hcap]) harrives p x
  · exact ⟨ht, htables, hsm⟩

theorem moved_sampleActive (st : Station) (a : Byte) (n l : Nat) (xs : List PlaceSample) :
    ss.Moved cap arrivals (s.sampleActive st a n l xs).ss := by
  unfold State.sampleActive
  dsimp only
  split
  · exact moved_seatChange h ..
  split
  · exact moved_miss (by simpa using h) st
  · refine moved_deliverSamples ?_ hpos ?_ ?_ st xs
    · simpa using h
    · simpa using hcap
    · simpa using hroutes

theorem moved_takeOutcome (st : Station) (k : PollKind) (l : Nat) (o : ReplyOutcome) :
    ss.Moved cap arrivals (s.takeOutcome st k l o).ss := by
  have hsample := moved_sampleActive h hpos hcap hroutes st
  unfold State.takeOutcome
  (repeat' split) <;> simp [h, hsample]

theorem moved_deliver (p : Poll) (o : ReplyOutcome) : ss.Moved cap arrivals (s.deliver p o).ss :=
  moved_takeOutcome (s := { s with lc := { s.lc with poll := none } }) h hpos hcap hroutes ..

theorem moved_takeStartBit (p : Poll) (c : Nat) : ss.Moved cap arrivals (s.takeStartBit p c).ss := by
  have hput (l : LineController) (o : ReplyOutcome) : ss.Moved cap arrivals ((s.putLine l).deliver p o).ss :=
    moved_deliver (by simpa using h) hpos (by simpa using hcap) (by simpa using hroutes) p o
  unfold State.takeStartBit
  dsimp only
  (repeat' split) <;> simp [h, hput]

theorem moved_readByte (p : Poll) : ss.Moved cap arrivals (s.readByte p).ss := by
  have hput (l : LineController) (q : Poll) (o : ReplyOutcome) : ss.Moved cap arrivals ((s.putLine l).deliver q o).ss :=
    moved_deliver (by simpa using h) hpos (by simpa using hcap) (by simpa using hroutes) q o
  unfold State.readByte
  dsimp only
  (repeat' split) <;> simp [h, hput, moved_deliver h hpos hcap hroutes]

end

/-! ## What a step makes of the buckets -/

/-- The routing maps some place to a position, so that samples can arrive (R7). -/
def State.Routes (s : State) : Prop := ∃ (st : Station) (q : Place), s.sm.routing[st][q] ≠ none

/-- What a step from `s` can make of the buckets: they move between the lists, or SS takes its reset state (R49, R64). -/
def State.BucketsMove (s t : State) : Prop :=
  s.ss.Moved s.tables.globals.chainCap s.Routes t.ss ∨ ∃ ss : SampleStore, t.ss = ss.clear

theorem resetStore_ss (s : State) : s.resetStore.ss = s.ss.clear :=
  forEach_keeps State.ss _ _ { s with ss := s.ss.clear } (by simp)

theorem Served.bucketsMove {s t : State} {w : Work} (hserved : Served s t w) : s.BucketsMove t := by
  cases hserved with
  | run => exact .inl (moved_enterRun .start)
  | config => exact .inl (moved_enterConfig .start)
  | reset => exact .inr ⟨_, resetStore_ss _⟩
  | _ => exact .inl (by simpa using .start)

/-- The buckets of the store at a reset of the part (R49). -/
theorem reset_ss : ({} : SampleStore) = SampleStore.clear { buckets := Vector.replicate 256 {} } := rfl

theorem RowEffect.bucketsMove {s t : State} (heffect : RowEffect s t) (hpos : 0 < s.tables.globals.chainCap) : s.BucketsMove t := by
  cases heffect with
  | fresh | blank => exact .inr ⟨_, reset_ss⟩
  | storeReset => exact .inr ⟨s.ss, by simpa [State.settleReset] using resetStore_ss { s with we := none, change := .none }⟩
  | evaluationStart => exact .inl (moved_startEvaluation .start)
  | @completion e => exact .inl (by simpa using moved_completeEvaluation .start e)
  | configEntry => exact .inl (by simpa using moved_enterConfig .start)
  | @outcome _ l p _ _ o => exact .inl (moved_deliver (s := s.putLine l) .start hpos rfl (fun st q h => ⟨st, q, h⟩) p o)
  | @startBit _ l p c => exact .inl (moved_takeStartBit (s := s.putLine l) .start hpos rfl (fun st q h => ⟨st, q, h⟩) p c)
  | @byte _ l p => exact .inl (moved_readByte (s := s.putLine l) .start hpos rfl (fun st q h => ⟨st, q, h⟩) p)
  | frame f =>
    refine receive_induction s.BucketsMove (.inl .start) ?_ (fun _ => .inl .start) (fun t w r _ hserved => hserved.bucketsMove) f
    intro t speed power ht
    simpa [State.BucketsMove] using ht
  | _ => exact .inl (by simpa using .start)

/-- Every effect of a row keeps the buckets accounted for, and the chain cap in its range. -/
theorem RowEffect.keeps_storeSound {s t : State} (heffect : RowEffect s t) (h : StoreSound s) : StoreSound t := by
  obtain ⟨haccounted, hcap⟩ := h
  constructor
  · rcases heffect.bucketsMove (by unfold CapInRange at hcap; omega) with hmoved | ⟨ss, hclear⟩
    · exact hmoved.accounted haccounted
    · rw [hclear]
      exact ss.accounted_clear
  · rcases heffect.tables_written with hdefault | hwritten
    · rw [hdefault]
      exact ⟨by decide, by decide⟩
    · exact hwritten.capInRange hcap

/-- Every effect of a row keeps the links sound. -/
theorem RowEffect.keeps_linked {s t : State} (heffect : RowEffect s t) (hpos : 0 < s.tables.globals.chainCap)
    (h : BucketsLinked s.ss) : BucketsLinked t.ss := by
  rcases heffect.bucketsMove hpos with hmoved | ⟨ss, hclear⟩
  · exact hmoved.linked h
  · rw [hclear]
    exact ss.linked_clear

/-! ## The chain cap -/

/-- A part whose chains are empty and whose routing is empty, with the cap at any value. -/
theorem chainsCapped_of_empty {s : State} (hchains : ∀ p : Pos, s.ss.chains[p].len = 0)
    (hrouting : ∀ (st : Station) (q : Place), s.sm.routing[st][q] = none) : ChainsCapped s :=
  ⟨fun p => by rw [hchains p]; exact Nat.zero_le _, fun _ => ⟨hrouting, fun _ => hchains⟩⟩

/-- Buckets move, and the part does not come into CONFIG. -/
theorem ChainsCapped.moved {s t : State} (h : ChainsCapped s) (hmoved : s.ss.Moved s.tables.globals.chainCap s.Routes t.ss)
    (hcap : t.tables.globals.chainCap = s.tables.globals.chainCap)
    (hconfig : t.mode = .config → s.mode = .config ∧ t.sm.routing = s.sm.routing ∧
      (t.change ≠ .resetSettling → s.change ≠ .resetSettling)) : ChainsCapped t := by
  obtain ⟨hlen, hempty⟩ := h
  refine ⟨fun p => by rw [hcap]; exact hmoved.capped hlen p, fun hmode => ?_⟩
  obtain ⟨hwas, hrouting, hchange⟩ := hconfig hmode
  obtain ⟨hnone, hzero⟩ := hempty hwas
  refine ⟨fun st q => by rw [hrouting]; exact hnone st q, fun hsettled p => ?_⟩
  exact hmoved.empty (fun ⟨st, q, hroute⟩ => hroute (hnone st q)) (hzero (hchange hsettled)) p

theorem emptyRouting_none (st : Station) (q : Place) : emptyRouting[st][q] = none := by simp [emptyRouting]

theorem State.enterConfig_does (s : State) : s.enterConfig.mode = .config ∧ s.enterConfig.sm.routing = emptyRouting ∧
    ∀ p : Pos, s.enterConfig.ss.chains[p] = flushedChain s.ss.chains[p] := by
  unfold State.enterConfig
  refine ⟨by simp [State.enterMode], by simp, fun p => ?_⟩
  rw [flushAll_chain]
  simp

theorem enterRun_mode (s : State) : s.enterRun.mode = .run := by
  unfold State.enterRun
  simp [State.enterMode]

theorem chainsCapped_enterConfig {t : State} (s : State) (hss : t.ss = s.enterConfig.ss) (hsm : t.sm = s.enterConfig.sm) :
    ChainsCapped t := by
  obtain ⟨-, hrouting, hchains⟩ := s.enterConfig_does
  refine chainsCapped_of_empty (fun p => ?_) fun st q => ?_
  · rw [hss, hchains]
    rfl
  · rw [hsm, hrouting]
    exact emptyRouting_none st q

/-- A RESET_RUNTIME begins CONFIG with an empty routing (R16, R172). -/
theorem resetRuntime_sm (s : State) : s.resetRuntime.sm = {} := by simp [State.resetRuntime]

theorem chainsCapped_clear {s : State} {ss : SampleStore} (hss : s.ss = ss.clear)
    (hrouting : s.mode = .config → ∀ (st : Station) (q : Place), s.sm.routing[st][q] = none) : ChainsCapped s := by
  have hchains (p : Pos) : s.ss.chains[p].len = 0 := by rw [hss]; simp [SampleStore.clear]
  exact ⟨fun p => by rw [hchains p]; exact Nat.zero_le _, fun hmode => ⟨hrouting hmode, fun _ => hchains⟩⟩

/-- A request is served while no change is in progress; the cap is written in CONFIG alone, where every chain is empty then (R156). -/
theorem Served.keeps_capped {s t : State} {w : Work} (hserved : Served s t w) (hwritten : s.tables.Written s.mode t.tables)
    (hchange : s.change = .none) (h : ChainsCapped s) : ChainsCapped t := by
  have hstored (hss : t.ss = s.ss) (hmode : t.mode = s.mode) (hsm : t.sm = s.sm) (hkept : t.change = s.change) : ChainsCapped t := by
    by_cases hconfig : s.mode = .config
    · obtain ⟨hnone, hzero⟩ := h.2 hconfig
      exact chainsCapped_of_empty (fun p => by rw [hss]; exact hzero (by simp [hchange]) p) fun st q => by rw [hsm]; exact hnone st q
    · refine h.moved (by rw [hss]; exact .start) (by rw [hwritten.globals_eq hconfig]) fun ht => absurd (hmode ▸ ht) hconfig
  cases hserved with
  | answered => exact h
  | wrote | wroteAll => exact hstored (by simp) (by simp) (by simp) (by simp)
  | run => exact h.moved (moved_enterRun .start) (by simp) fun ht => by simp [enterRun_mode] at ht
  | hold | holdSettling => exact h.moved (by simpa using .start) (by simp) fun ht => by simp [State.enterHold, State.enterMode] at ht
  | config => exact chainsCapped_enterConfig s rfl rfl
  | configWaiting hmode => exact h.moved .start rfl fun ht => absurd ht hmode
  | queued => exact h.moved .start rfl fun ht => ⟨ht, rfl, id⟩
  | reset => exact chainsCapped_clear (resetStore_ss _) fun _ st q => by simp [resetRuntime_sm]
  | resetSettling =>
    obtain ⟨hlen, -⟩ := h
    refine ⟨by simpa using hlen, fun _ => ⟨fun st q => by simp [resetRuntime_sm], fun hne => absurd rfl hne⟩⟩

/-- A slot start leaves a RESET_RUNTIME waiting that waits (R169). -/
theorem takeSlotStart_resetSettling {s : State} (h : s.change = .resetSettling) : s.takeSlotStart.change = .resetSettling := by
  unfold State.takeSlotStart State.postponeEntry
  split <;> simp [h, Change.postponed]

/-- Every effect of a row keeps the chains within the cap. -/
theorem RowEffect.keeps_capped {s t : State} (heffect : RowEffect s t) (hsound : StoreSound s) (hserved : ChangeServed s)
    (h : ChainsCapped s) : ChainsCapped t := by
  have hpos : 0 < s.tables.globals.chainCap := by
    obtain ⟨-, hleast, -⟩ := hsound
    omega
  cases heffect with
  | fresh | blank => exact chainsCapped_clear reset_ss fun _ st q => by simp [State.fresh, State.blank]
  | storeReset he hchange =>
    refine chainsCapped_clear (ss := s.ss) ?_ fun hmode st q => ?_
    · simpa [State.settleReset] using resetStore_ss { s with we := none, change := .none }
    · simpa [State.settleReset] using (h.2 (by simpa [State.settleReset] using hmode)).1 st q
  | evaluationStart => exact h.moved (moved_startEvaluation .start) (by simp) (by simp)
  | @completion e he hchange => exact h.moved (by simpa using moved_completeEvaluation .start e) (by simp) (by simp [hchange])
  | configEntry => exact chainsCapped_enterConfig s (by simp) (by simp)
  | @outcome _ l p _ _ o =>
    exact h.moved (moved_deliver (s := s.putLine l) .start hpos rfl (fun st q h => ⟨st, q, h⟩) p o) (by simp)
      fun ht => ⟨by simpa using ht, by simp, by simp⟩
  | @startBit _ l p c =>
    exact h.moved (moved_takeStartBit (s := s.putLine l) .start hpos rfl (fun st q h => ⟨st, q, h⟩) p c) (by simp)
      fun ht => ⟨by simpa using ht, by simp, by simp⟩
  | @byte _ l p =>
    exact h.moved (moved_readByte (s := s.putLine l) .start hpos rfl (fun st q h => ⟨st, q, h⟩) p) (by simp)
      fun ht => ⟨by simpa using ht, by simp, by simp⟩
  | @slotStart _ l =>
    refine h.moved (by simpa using .start) (by simp) fun hmode => ⟨by simpa using hmode, by simp, fun hne hsettling => hne ?_⟩
    exact takeSlotStart_resetSettling (s := s.putLine l) hsettling
  | holdSettled hchange => exact h.moved .start rfl fun ht => ⟨ht, rfl, fun _ => by simp [hchange]⟩
  | frame f =>
    refine receive_serves ChainsCapped h ?_ (fun mu => ?_) (fun r hidle => ?_) f
    · intro t speed power ht
      exact ht.moved (by simpa using .start) (by simp) (by simp)
    · exact h.moved .start rfl fun ht => ⟨ht, rfl, id⟩
    · have hnone := hserved.change_eq_none fun rec => by simp [hidle]
      exact (serve_served s r).keeps_capped (serve_written s r) hnone h
  | _ => exact h.moved (by simpa using .start) (by simp) fun ht => ⟨by simpa using ht, by simp, by simp⟩

/-- Settles O53: what every step can make of the lists keeps them, and the cap is written where the chains are empty. -/
theorem everyStepAccountsForTheBuckets : Obligations.EveryStepAccountsForTheBuckets := by
  refine ⟨fun s t hsound hstep => ?_, fun s t hsound hlinked hserved hstep => ?_⟩
  · exact step_induction StoreSound (fun _ _ h => h) (fun _ _ heffect => heffect.keeps_storeSound) hsound hstep
  · unfold step at hstep
    split at hstep
    next => cases hstep; exact hlinked
    next c rest _ =>
      obtain ⟨hlinks, hcapped⟩ := hlinked
      have heffect := exec_effect hstep
      refine ⟨heffect.keeps_linked ?_ hlinks, heffect.keeps_capped hsound hserved hcapped⟩
      obtain ⟨-, hleast, -⟩ := hsound
      exact Nat.lt_of_lt_of_le (by decide) hleast

end Sys2Proof.Machine
end

section
/-! The state after a reset: every block at its reset value, and every promise met (R4, R18, R36, R49, R84, R103, R123, R136, R149, R150,
R173, R178). -/

namespace Sys2Proof.Machine

/-- The straps select one of the four identifier bases (R136). -/
theorem identifierBase_eq (straps : Straps) :
    identifierBase straps = if straps = 0 then 0x640 else if straps = 1 then 0x660 else if straps = 2 then 0x680 else 0x6A0 := by
  revert straps
  decide

/-- Settles O3: the reset state is written out, block by block. -/
theorem powerOnResetRestoresEveryResetValue : Obligations.PowerOnResetRestoresEveryResetValue := by
  intro straps s
  refine ⟨{ State.fresh straps with pending := s.pending }, rfl, fun hreset => ?_, rfl, rfl, rfl, rfl, rfl, rfl, rfl, rfl, rfl, rfl,
    rfl, ?_⟩
  · exact congrArg Host.Outcome.next (if_pos hreset)
  refine ⟨fun st => ⟨?_, fun q => ?_⟩, rfl, rfl, rfl, fun b => ?_, rfl, fun p => ⟨?_, ?_, ?_, ?_, ?_, ?_, ?_, ?_⟩, rfl, rfl, rfl,
    fun g => ⟨?_, ?_, ?_⟩, fun i => ?_, rfl, rfl, rfl, rfl, rfl, rfl, ?_, ?_, identifierBase_eq straps, ?_⟩
  all_goals simp [State.fresh, linkedInOrder, State.lampLine, Override.level, State.chimeLine, State.suppressLine]

/-- The state after a reset is a blank one, with both straps low (log entry 1). -/
theorem reset_eq_blank : State.reset = State.blank .on 0x640 [] := rfl

/-- Settles O60: each promise holds of a part whose every block is at its reset value. -/
theorem resetStateIsSound : Obligations.ResetStateIsSound := by
  have hsuppression : SuppressionSound State.reset := suppressionSound_kept.blank ..
  have hport : PortSound State.reset := by
    unfold PortSound
    decide
  have hclosed : RemindersClosed State.reset := ⟨fun _ p => by simp [reset_eq_blank, State.blank], fun _ => rfl⟩
  have hrecords : RecordsSound State.reset := fun p => by simp [reset_eq_blank, State.blank, RecordSound]
  have hcapped : ChainsCapped State.reset := chainsCapped_clear reset_ss fun _ st q => by simp [reset_eq_blank, State.blank]
  have hlinked : BucketsLinked State.reset.ss := SampleStore.linked_clear { buckets := Vector.replicate 256 {} }
  have hstore : StoreSound State.reset :=
    ⟨SampleStore.accounted_clear { buckets := Vector.replicate 256 {} }, by decide, by decide⟩
  have hqueue : EvaluationQueueSound State.reset :=
    (queued_iff _).mp (SampleStore.queued_clear { buckets := Vector.replicate 256 {} })
  have hreports : ReportsFollow State.reset :=
    (reportsFollow_iff _).mpr ⟨classesFollow_kept.blank .on 0x640 [], qualitiesFollow_kept.blank .on 0x640 [],
      beltsFollow_kept.blank .on 0x640 []⟩
  exact ⟨hstore, consistent_default, hsuppression.1, hsuppression.2, hreports, copiesFollow_kept.blank .on 0x640 [], hclosed, hrecords,
    ⟨by decide, List.nodup_nil⟩, ⟨by decide, fun _ => rfl⟩, hport, changeServed_of_none rfl, ⟨hlinked, hcapped⟩, groupsFollow_kept.blank .., hqueue⟩

end Sys2Proof.Machine
end

section
/-! Exchanges that end without a good reply (R8, R9, R20, R24, R27, R31). -/

namespace Sys2Proof.Machine

/-! ## The events that end an exchange -/

theorem LineController.event_busy {l : LineController} {p : Poll} (hp : l.poll = some p) (hph : p.phase = .waitIdle)
    (hclock : p.slotStart + 800 ≤ l.clock) (hidle : l.idleRun < 80) : l.event = some .busy := by
  simp [LineController.event, hp, hph, idleToSend, busyLimit, Nat.not_le.mpr hidle, hclock]

theorem LineController.event_windowCloses {l : LineController} {p : Poll} (hp : l.poll = some p) (hph : p.phase = .listening)
    (hc : l.candidate = none) (hclock : p.pollEnd + 401 ≤ l.clock) : l.event = some .windowCloses := by
  have hover : p.pollEnd + 400 < l.clock := hclock
  simp [LineController.event, hp, hph, LineController.windowEvent, LineController.confirmed, hc, windowTicks, hover]

/-- Between two bytes of a reply with no start bit confirmed, the idle run and then the limit decide. -/
theorem LineController.event_betweenBytes {l : LineController} {p : Poll} (hp : l.poll = some p) (hph : p.phase = .receiving)
    (hb : p.byteStart = none) (hc : ∀ c, l.candidate = some c → l.clock < c + 3) :
    l.event = if 120 ≤ l.idleRun then some .idle else if p.pollEnd + 2800 < l.clock then some .limit else none := by
  have hconfirmed : l.confirmed = none := by
    cases hcand : l.candidate with
    | none => simp [LineController.confirmed, hcand]
    | some c => simp [LineController.confirmed_of_candidate hcand, hc c hcand]
  simp only [LineController.event, hp, hph, LineController.receptionEvent, hb, hconfirmed]
  rfl

theorem LineController.event_limit_inByte {l : LineController} {p : Poll} {start : Nat} (hp : l.poll = some p)
    (hph : p.phase = .receiving) (hb : p.byteStart = some start) (hclock : l.clock ≤ start + 38)
    (hlimit : p.pollEnd + 2801 ≤ l.clock) : l.event = some .limit := by
  have hover : p.pollEnd + 2800 < l.clock := hlimit
  simp [LineController.event, hp, hph, hb, LineController.receptionEvent, stopTick, receptionTicks, Nat.not_lt.mpr hclock, hover]

/-! ## The commands of these events -/

theorem exec_lineBusy {s : State} {line : Samples} {l : LineController} {p : Poll} (hs : s.power = .on)
    (hl : s.lc.pass line = some l) (hp : l.poll = some p) (hevent : l.event = some .busy) :
    exec (.lineBusy line) s = .next ((s.putLine l).deliver p .lineBusy) := by
  change execLineBusy s line = _
  unfold execLineBusy
  exact onLine_next hs hl hp hevent (if_pos rfl)

theorem exec_noReply {s : State} {line : Samples} {l : LineController} {p : Poll} (hs : s.power = .on)
    (hl : s.lc.pass line = some l) (hp : l.poll = some p) (hevent : l.event = some .windowCloses) :
    exec (.noReply line) s = .next ((s.putLine l).deliver p .noReply) := by
  change execNoReply s line = _
  unfold execNoReply
  exact onLine_next hs hl hp hevent (if_pos rfl)

theorem exec_endOfFrameIdle {s : State} {line : Samples} {l : LineController} {p : Poll} (hs : s.power = .on)
    (hl : s.lc.pass line = some l) (hp : l.poll = some p) (hevent : l.event = some .idle) :
    exec (.endOfFrameIdle line) s = .next ((s.putLine l).deliver p (endedOutcome p l.buffer)) := by
  change execEndOfFrameIdle s line = _
  unfold execEndOfFrameIdle
  exact onLine_next hs hl hp hevent (if_pos rfl)

theorem exec_receptionLimit {s : State} {line : Samples} {l : LineController} {p : Poll} (hs : s.power = .on)
    (hl : s.lc.pass line = some l) (hp : l.poll = some p) (hevent : l.event = some .limit) :
    exec (.receptionLimit line) s = .next ((s.putLine l).deliver p (endedOutcome p l.buffer)) := by
  change execReceptionLimit s line = _
  unfold execReceptionLimit
  exact onLine_next hs hl hp hevent (if_pos rfl)

/-- A start bit for a 49th byte ends the reception (R27). -/
theorem takeStartBit_full {s : State} {p : Poll} (c : Nat) (hph : p.phase = .receiving) (hfull : s.lc.buffer.length = 48) :
    s.takeStartBit p c = (s.putLine { s.lc with candidate := none }).deliver p .length := by
  have hsize : s.lc.buffer.length = bufferSize := hfull
  simp [State.takeStartBit, hph, hsize]

/-! ## A reception that idle or the limit ends -/

theorem endedOutcome_short {p : Poll} {buffer : List Byte} (h : buffer.length < 6 ∨ (expectedLength buffer).isSome = true) :
    endedOutcome p buffer = .length := by
  cases hlength : expectedLength buffer with
  | some n => simp [endedOutcome, hlength]
  | none => simp [endedOutcome, hlength, h.resolve_right (by simp [hlength])]

theorem endedOutcome_open {p : Poll} {buffer : List Byte} (h : ¬ (buffer.length < 6 ∨ (expectedLength buffer).isSome = true)) :
    endedOutcome p buffer = frameOutcome p buffer := by
  simp only [not_or, Bool.not_eq_true, Option.isSome_eq_false_iff, Option.isNone_iff_eq_none] at h
  simp [endedOutcome, h.1, h.2]

/-- A reception that has ended is a miss where the reply is short, and is checked as a frame where it is open. -/
theorem deliver_ended (s : State) (l : LineController) (p : Poll) :
    let short := l.buffer.length < 6 ∨ (expectedLength l.buffer).isSome = true
    (short → ExchangeFailed s { l with poll := none } ((s.putLine l).deliver p (endedOutcome p l.buffer)) p.station) ∧
    (¬ short → (s.putLine l).deliver p (endedOutcome p l.buffer) =
      State.takeOutcome { s with lc := { l with poll := none } } p.station p.kind (p.latency.getD 0) (frameOutcome p l.buffer)) := by
  refine ⟨fun hshort => ?_, fun hopen => ?_⟩
  · rw [endedOutcome_short hshort]
    exact exchangeFailed_deliver s l p (by simp) (by simp)
  · rw [endedOutcome_open hopen, deliver_putLine]

/-! ## A candidate that is pending when the window closes -/

/-- Samples before the confirming one leave a candidate of an open window pending. -/
theorem LineController.foldl_tick_unsettled {line : Samples} {l : LineController} {c : Nat} (hc : l.candidate = some c)
    (hclock : l.clock + line.length ≤ c + 2) : (line.foldl LineController.tick l).candidate = some c := by
  induction line generalizing l with
  | nil => exact hc
  | cons b rest ih =>
    simp only [List.length_cons] at hclock
    exact ih (LineController.candidateAfter_unsettled hc (by omega)) (by simp; omega)

/-- Its samples up to the confirming one pass, even where the window is over before. -/
theorem LineController.pass_unsettled {line : Samples} {l : LineController} {p : Poll} {c : Nat} (hp : l.poll = some p)
    (hph : p.phase = .listening) (hc : l.candidate = some c) (hclock : l.clock + line.length ≤ c + 3) :
    l.pass line = some (line.foldl LineController.tick l) := by
  refine LineController.pass_eq_foldl fun k hk => ?_
  obtain ⟨q, hq, hpq⟩ := LineController.foldl_tick_poll (line.take k) hp
  obtain ⟨-, -, -, hphase, -⟩ := hpq.keeps
  have hat : ((line.take k).foldl LineController.tick l).clock = l.clock + k := by
    simp [Nat.min_eq_left hk.le]
  have hlength : (line.take k).length = k := by simp [Nat.min_eq_left hk.le]
  exact LineController.event_unsettled hq (hphase.trans hph) (LineController.foldl_tick_unsettled hc (by omega)) (by omega)

/-- The confirming sample of a pending candidate rejects it when high and confirms it when low. -/
theorem LineController.foldl_tick_settles {line : Samples} {l : LineController} {p : Poll} {c : Nat} (hp : l.poll = some p)
    (hph : p.phase = .listening) (hc : l.candidate = some c) (hne : line ≠ []) (hclock : l.clock + line.length = c + 3) :
    (line.foldl LineController.tick l).candidate = if line.getLast? = some true then none else some c := by
  obtain ⟨init, b, rfl⟩ : ∃ init b, line = init ++ [b] := ⟨_, _, (List.dropLast_append_getLast hne).symm⟩
  rw [List.length_append, List.length_singleton] at hclock
  obtain ⟨q, hq, hpq⟩ := LineController.foldl_tick_poll init hp
  obtain ⟨-, -, -, hphase, -⟩ := hpq.keeps
  have hpending := LineController.foldl_tick_unsettled (line := init) hc (by omega)
  have hwatching : (init.foldl LineController.tick l).watching = true :=
    LineController.watching_iff.mpr ⟨q, hq, .inl (hphase.trans hph)⟩
  have hsettled := LineController.candidateAfter_settled b hpending (by simp; omega)
  simpa [List.foldl_append, hwatching] using hsettled

/-- Settles O17: each end of an exchange is one event of the line, and a pending candidate has none before its confirming
sample. -/
theorem failedExchangesCountMisses : Obligations.FailedExchangesCountMisses := by
  refine ⟨?ends, ?pending⟩
  case ends =>
    intro s line l p hs hl hp
    dsimp only
    obtain ⟨hshort, hopen⟩ := deliver_ended s l p
    refine ⟨fun hph hclock hidle => ?busy, fun hph hc hclock => ?closes, fun hph hb hc hidle => ?idle,
      fun hph hlimit hwhen => ?limit, fun hph hb hcand hfull => ?full⟩
    case busy =>
      exact ⟨_, exec_lineBusy hs hl hp (LineController.event_busy hp hph hclock hidle),
        exchangeFailed_deliver s l p (by simp) (by simp)⟩
    case closes =>
      exact ⟨_, exec_noReply hs hl hp (LineController.event_windowCloses hp hph hc hclock),
        exchangeFailed_deliver s l p (by simp) (by simp)⟩
    case idle =>
      have hevent : l.event = some .idle := by
        rw [LineController.event_betweenBytes hp hph hb (by simp [hc]), if_pos hidle]
      have hexec := exec_endOfFrameIdle hs hl hp hevent
      exact ⟨fun h => ⟨_, hexec, hshort h⟩, fun h => hexec.trans (congrArg Host.Outcome.next (hopen h))⟩
    case limit =>
      have hevent : l.event = some .limit := by
        rcases hwhen with ⟨b, hb, hclock⟩ | ⟨hb, hidle, hcand⟩
        · exact LineController.event_limit_inByte hp hph hb hclock hlimit
        · have hover : p.pollEnd + 2800 < l.clock := hlimit
          rw [LineController.event_betweenBytes hp hph hb hcand, if_neg (Nat.not_le.mpr hidle), if_pos hover]
      have hexec := exec_receptionLimit hs hl hp hevent
      exact ⟨fun h => ⟨_, hexec, hshort h⟩, fun h => hexec.trans (congrArg Host.Outcome.next (hopen h))⟩
    case full =>
      obtain ⟨c, hc, hclock⟩ := hcand
      have hexec := exec_replyStartBit hs hl hp (LineController.event_startBit_receiving hp hph hb hc hclock)
      rw [takeStartBit_full (s := s.putLine l) c hph hfull] at hexec
      exact ⟨_, hexec, exchangeFailed_deliver s { l with candidate := none } p (by simp) (by simp)⟩
  case pending =>
    intro l p c line hp hph hc hbefore _ hlength
    have hat : l.clock + line.length = c + 3 := by omega
    have hne : line ≠ [] := by rintro rfl; simp at hlength; omega
    exact ⟨_, LineController.pass_unsettled hp hph hc hat.le, by simp [hat],
      LineController.foldl_tick_settles hp hph hc hne hat⟩

end Sys2Proof.Machine
end

section
/-! The events that an operation queues, one after the other (R144, R145). -/

namespace Sys2Proof.Machine

/-- The EVENT slot and the Event Queue. -/
def VehiclePort.events (v : VehiclePort) : Option EventRecord × List EventRecord := (v.eventSlot, v.eventQueue)

theorem VehiclePort.events_eq_iff {v w : VehiclePort} :
    w.events = v.events ↔ w.eventSlot = v.eventSlot ∧ w.eventQueue = v.eventQueue := by simp [VehiclePort.events]

/-- The taking of an event is about the slot and the queue alone. -/
theorem EventTaken.congr {v w v' w' : VehiclePort} {r : EventRecord} (h : EventTaken v w r) (hv : v'.events = v.events)
    (hw : w'.events = w.events) : EventTaken v' w' r := by
  obtain ⟨hvslot, hvqueue⟩ := VehiclePort.events_eq_iff.mp hv
  obtain ⟨hwslot, hwqueue⟩ := VehiclePort.events_eq_iff.mp hw
  unfold EventTaken at h ⊢
  rwa [hvslot, hvqueue, hwslot, hwqueue]

theorem EventsQueued.congr {v w v' w' : VehiclePort} {rs : List EventRecord} (h : EventsQueued v w rs) (hv : v'.events = v.events)
    (hw : w'.events = w.events) : EventsQueued v' w' rs := by
  induction rs generalizing v v' with
  | nil => exact VehiclePort.events_eq_iff.mp ((hw.trans (VehiclePort.events_eq_iff.mpr h)).trans hv.symm)
  | cons r rs ih =>
    obtain ⟨u, htaken, hlater⟩ := h
    exact ⟨u, htaken.congr hv rfl, ih hlater rfl⟩

theorem eventsQueued_none {v w : VehiclePort} (h : w.events = v.events) : EventsQueued v w [] := VehiclePort.events_eq_iff.mp h

theorem EventTaken.queued {v w : VehiclePort} {r : EventRecord} (h : EventTaken v w r) : EventsQueued v w [r] := ⟨w, h, rfl, rfl⟩

theorem EventsQueued.append {u v w : VehiclePort} {rs ts : List EventRecord} (h : EventsQueued u v rs) (h' : EventsQueued v w ts) :
    EventsQueued u w (rs ++ ts) := by
  induction rs generalizing u with
  | nil => exact h'.congr (VehiclePort.events_eq_iff.mpr h).symm rfl
  | cons r rs ih =>
    obtain ⟨x, htaken, hlater⟩ := h
    exact ⟨x, htaken, ih hlater⟩

/-! ## The events of the part's operations -/

/-- The record of an event depends on the state through its Cabin Time. -/
theorem eventOf_congr {s t : State} (h : t.tb.time = s.tb.time) : eventOf t = eventOf s := by
  unfold eventOf
  rw [h]

theorem queueEvent_taken (s : State) (k : EventKind) (a b c : Byte) :
    EventTaken s.vp (s.queueEvent k a b c).vp (eventOf s k a b c) :=
  VehiclePort.enqueue_taken ..

theorem positionEvent_taken (s : State) (k : EventKind) (p : Pos) (a b : Byte) :
    EventTaken s.vp (s.positionEvent k p a b).vp (eventOf s k (BitVec.ofNat 8 p.val) a b) := queueEvent_taken ..

theorem stationEvent_taken (s : State) (k : EventKind) (st : Station) (a b : Byte) :
    EventTaken s.vp (s.stationEvent k st a b).vp (eventOf s k (BitVec.ofNat 8 (st.val + 1)) a b) := queueEvent_taken ..

@[simp] theorem setQuality_events (s : State) (p : Pos) (f : Quality → Quality) : (s.setQuality p f).vp.events = s.vp.events := rfl

@[simp] theorem putBuckle_events (s : State) (p : Pos) (b : Buckle) : (s.putBuckle p b).vp.events = s.vp.events := by
  rw [(putBuckle_does s p b).2.1]
  rfl

@[simp] theorem putRecord_events (s : State) (p : Pos) (r : ReminderRecord) : (s.putRecord p r).vp.events = s.vp.events := by
  rw [(putRecord_does s p r).2.2.2.1]
  rfl

/-- A run queues the events of its steps, in turn; `I` is what the run keeps of the state. -/
theorem eventsQueued_forEach {α : Type} (I : State → Prop) {f : α → State → State} {rs : α → List EventRecord}
    (hI : ∀ x t, I t → I (f x t)) (hf : ∀ x t, I t → EventsQueued t.vp (f x t).vp (rs x)) (xs : List α) {s : State} (hs : I s) :
    EventsQueued s.vp (forEach xs f s).vp (xs.flatMap rs) := by
  induction xs generalizing s with
  | nil => exact eventsQueued_none rfl
  | cons x xs ih => exact (hf x s hs).append (ih (hI x s hs))

end Sys2Proof.Machine
end

section
/-! The arrival of place samples, and their delivery from a reply (R7, R50, R52 to R55). -/

namespace Sys2Proof.Machine

/-! ## The scheduling test -/

/-- The scheduling test of `p` leaves everything but the position's scheduled flag and the Evaluation Queue. -/
theorem SampleStore.schedule_keeps (ss : SampleStore) (p : Pos) (w : Nat) :
    (ss.schedule p w).freeHead = ss.freeHead ∧ (ss.schedule p w).freeLen = ss.freeLen ∧ (ss.schedule p w).buckets = ss.buckets ∧
    (ss.schedule p w).chains[p] = { ss.chains[p] with scheduled := (ss.schedule p w).chains[p].scheduled } ∧
    (∀ q : Pos, q ≠ p → (ss.schedule p w).chains[q] = ss.chains[q]) ∧
    (ss.schedule p w).evalQueue =
      if w ≤ ss.chains[p].len ∧ ss.chains[p].scheduled = false then ss.evalQueue ++ [p] else ss.evalQueue := by
  rw [schedule_does]
  split
  · refine ⟨rfl, rfl, rfl, ?_, fun q hq => ?_, rfl⟩
    · rw [set_getElem_fin, if_pos rfl]
    · rw [set_getElem_fin, if_neg hq]
  · exact ⟨rfl, rfl, rfl, rfl, fun _ _ => rfl, rfl⟩

/-! ## The oldest bucket of a chain makes room -/

/-- Of a chain with more than one bucket, the oldest one becomes the free list's head, and the chain begins with the next one. -/
theorem SampleStore.returnHead_long {ss : SampleStore} {p : Pos} (h : 2 ≤ ss.chains[p].len) :
    (ss.returnHead p).freeHead = ss.chains[p].head ∧ (ss.returnHead p).freeLen = ss.freeLen + 1 ∧
    (ss.returnHead p).chains[p] =
      { ss.chains[p] with head := ss.buckets[ss.chains[p].head].next, len := ss.chains[p].len - 1 } := by
  have h0 : ss.chains[p].len ≠ 0 := by omega
  have h1 : ss.chains[p].len ≠ 1 := by omega
  simp only [returnHead, h0, h1, if_false]
  refine ⟨rfl, rfl, ?_⟩
  dsimp only [push]
  rw [set_getElem_fin, if_pos rfl]

/-- A sample that displaces the oldest one of a chain takes its bucket (R53). -/
theorem SampleStore.displace_does {ss : SampleStore} {p : Pos} (h : 2 ≤ ss.chains[p].len) (x : PlaceSample) (now : Time) :
    let u := (ss.returnHead p).store p x now
    u.freeLen = ss.freeLen ∧ u.evalQueue = ss.evalQueue ∧
    u.chains[p] = { ss.chains[p] with head := ss.buckets[ss.chains[p].head].next, tail := ss.chains[p].head } ∧
    (∀ q : Pos, q ≠ p → u.chains[q] = ss.chains[q]) ∧
    u.buckets[ss.chains[p].head].sample = x ∧ u.buckets[ss.chains[p].head].time = now := by
  obtain ⟨hhead, hfree, hchain⟩ := returnHead_long h
  obtain ⟨-, -, hqueue, -, hothers⟩ := ss.returnHead_does p
  obtain ⟨hfree', -, hqueue', hchain', hothers', hsample, htime⟩ := (ss.returnHead p).store_does p x now
  have hlen : (ss.returnHead p).chains[p].len ≠ 0 := by rw [hchain]; dsimp only; omega
  have hback : ss.chains[p].len - 1 + 1 = ss.chains[p].len := by omega
  rw [if_neg hlen, hhead, hchain] at hchain'
  simp only [hhead] at hsample htime
  refine ⟨by rw [hfree', hfree]; rfl, hqueue'.trans hqueue, ?_, fun q hq => (hothers' q hq).trans (hothers q hq), hsample, htime⟩
  rw [hchain', hback]

/-! ## What becomes of an arriving sample -/

/-- A sample has arrived and waits for its scheduling test (R52 to R54). -/
def State.received (s : State) (p : Pos) (x : PlaceSample) : State :=
  match s.ss.room p s.tables.globals.chainCap with
  | .store => { s with ss := s.ss.store p x s.tb.time }
  | .displace => { s with ss := (s.ss.returnHead p).store p x s.tb.time }
  | .drop => s.dropSample p

theorem arrive_eq (s : State) (p : Pos) (x : PlaceSample) : s.arrive p x = (s.received p x).scheduleTest p := rfl

/-- The arrival is settled by SS's scheduling test, which leaves CL and VP alone. -/
theorem arrive_does (s : State) (p : Pos) (x : PlaceSample) :
    (s.arrive p x).ss = (s.received p x).ss.schedule p (s.bankInForce p).w ∧ (s.arrive p x).cl = (s.received p x).cl ∧
    (s.arrive p x).vp = (s.received p x).vp := by
  have htables : (s.received p x).tables = s.tables := by unfold State.received; split <;> simp
  refine ⟨?_, rfl, rfl⟩
  rw [arrive_eq]
  unfold State.scheduleTest State.bankInForce
  rw [htables]

theorem received_store {s : State} {p : Pos} (x : PlaceSample) (hlen : s.ss.chains[p].len ≠ s.tables.globals.chainCap)
    (hfree : s.ss.freeLen ≠ 0) : s.received p x = { s with ss := s.ss.store p x s.tb.time } := by
  unfold State.received
  rw [SampleStore.room_store_iff.mpr ⟨hlen, hfree⟩]

theorem received_displace {s : State} {p : Pos} (x : PlaceSample) (hlen : s.ss.chains[p].len = s.tables.globals.chainCap)
    (hidle : s.ss.chains[p].underEval = false) :
    s.received p x = { s with ss := (s.ss.returnHead p).store p x s.tb.time } := by
  unfold State.received
  rw [SampleStore.room_displace_iff.mpr ⟨hlen, hidle⟩]

theorem received_drop {s : State} {p : Pos} (x : PlaceSample)
    (h : s.ss.chains[p].len = s.tables.globals.chainCap ∧ s.ss.chains[p].underEval = true ∨
      s.ss.chains[p].len ≠ s.tables.globals.chainCap ∧ s.ss.freeLen = 0) : s.received p x = s.dropSample p := by
  unfold State.received
  rw [SampleStore.room_drop_iff.mpr h]

/-- A dropped sample notes the loss, and queues its event unless SAMPLE_LOSS is set already (R54). -/
theorem dropSample_does (s : State) (p : Pos) :
    (s.dropSample p).ss = { s.ss with chains := upd s.ss.chains p fun c => { c with loss := true } } ∧
    (s.cl[p].quality.sampleLoss = true → (s.dropSample p).cl = s.cl ∧ (s.dropSample p).vp = s.vp) ∧
    (s.cl[p].quality.sampleLoss = false →
      (s.dropSample p).cl = upd s.cl p (fun r => { r with quality := { r.quality with sampleLoss := true } }) ∧
      EventTaken s.vp (s.dropSample p).vp (eventOf s .sampleLoss (BitVec.ofNat 8 p.val) 0 0)) := by
  refine ⟨?_, fun hlost => ?_, fun hnew => ?_⟩
  · unfold State.dropSample
    dsimp only
    split <;> rfl
  · unfold State.dropSample
    dsimp only
    rw [if_pos hlost]
    exact ⟨rfl, rfl⟩
  · have hnot : ¬ s.cl[p].quality.sampleLoss = true := by simp only [hnew, Bool.false_eq_true, not_false_eq_true]
    unfold State.dropSample
    dsimp only
    rw [if_neg hnot]
    have htaken := positionEvent_taken (State.setQuality
      { s with ss := { s.ss with chains := upd s.ss.chains p fun c => { c with loss := true } } } p
        fun q => { q with sampleLoss := true }) .sampleLoss p 0 0
    exact ⟨(setQuality_does { s with ss := _ } p fun q => { q with sampleLoss := true }).1, htaken.congr rfl rfl⟩

/-- The sample of a position leaves the other chains, the scheduled flags and the queue as they are (R52 to R54). -/
theorem received_keeps (s : State) (p : Pos) (x : PlaceSample) :
    (∀ q : Pos, q ≠ p → (s.received p x).ss.chains[q] = s.ss.chains[q] ∧ (s.received p x).cl[q] = s.cl[q]) ∧
    (s.received p x).ss.chains[p].scheduled = s.ss.chains[p].scheduled ∧ (s.received p x).ss.evalQueue = s.ss.evalQueue := by
  unfold State.received
  split
  · obtain ⟨-, -, hqueue, hchain, hothers, -⟩ := s.ss.store_does p x s.tb.time
    exact ⟨fun q hq => ⟨hothers q hq, rfl⟩, by rw [hchain], hqueue⟩
  · obtain ⟨-, -, hqueue, hchain, hothers⟩ := s.ss.returnHead_does p
    obtain ⟨-, -, hqueue', hchain', hothers', -⟩ := (s.ss.returnHead p).store_does p x s.tb.time
    exact ⟨fun q hq => ⟨(hothers' q hq).trans (hothers q hq), rfl⟩, by rw [hchain', hchain],
      hqueue'.trans hqueue⟩
  · obtain ⟨hss, hold, hnew⟩ := dropSample_does s p
    rw [hss]
    refine ⟨fun q hq => ⟨by rw [upd_getElem_fin, if_neg hq], ?_⟩, by rw [upd_getElem_fin, if_pos rfl], rfl⟩
    cases hlost : s.cl[p].quality.sampleLoss with
    | true => rw [(hold hlost).1]
    | false => rw [(hnew hlost).1, upd_getElem_fin, if_neg hq]

/-! ## Positions that an operation leaves alone -/

theorem Untouched.refl (s : State) (q : Pos) : Untouched s s q := ⟨rfl, rfl, rfl, rfl⟩

theorem Untouched.trans {s t u : State} {q : Pos} (h : Untouched s t q) (h' : Untouched t u q) : Untouched s u q := by
  obtain ⟨hchain, hcl, hbuckle, hrecord⟩ := h
  obtain ⟨hchain', hcl', hbuckle', hrecord'⟩ := h'
  exact ⟨hchain'.trans hchain, hcl'.trans hcl, hbuckle'.trans hbuckle, hrecord'.trans hrecord⟩

/-- A place sample of `p` leaves every other position alone. -/
theorem arrive_untouched (s : State) {p q : Pos} (hq : q ≠ p) (x : PlaceSample) : Untouched s (s.arrive p x) q := by
  obtain ⟨hss, hcl, -⟩ := arrive_does s p x
  obtain ⟨-, -, -, -, hothers, -⟩ := (s.received p x).ss.schedule_keeps p (s.bankInForce p).w
  obtain ⟨hchain, hstate⟩ := (received_keeps s p x).1 q hq
  have hru : (s.arrive p x).ru = s.ru := by simp
  refine ⟨?_, ?_, ?_, ?_⟩
  · rw [hss]
    exact (hothers q hq).trans hchain
  · rw [hcl]
    exact hstate
  · rw [hru]
  · rw [hru]

/-- A buckle reading of `p` leaves every other position alone. -/
theorem buckleReading_untouched (s : State) {p q : Pos} (hq : q ≠ p) (x : Reading) : Untouched s (s.buckleReading p x) q := by
  have hss : (s.buckleReading p x).ss = s.ss := by simp
  have hcl : (s.buckleReading p x).cl = s.cl := by simp
  obtain ⟨b, r, hbuckles, hrecords⟩ : ∃ b r, (s.buckleReading p x).ru.buckles = s.ru.buckles.set p b ∧
      (s.buckleReading p x).ru.records = s.ru.records.set p r := by
    by_cases hconfirms : s.ru.buckles[p].last = some x ∧ s.ru.buckles[p].confirmed ≠ some x
    · rw [buckleReading_confirms hconfirms.1 hconfirms.2]
      obtain ⟨honly, r, hru⟩ := changeMoves_does (s.putBuckle p (s.capture x)) p x (s.ru.buckles[p].confirmed == some .latched)
      refine ⟨_, r, honly.of_putBuckle.2, ?_⟩
      rw [hru, (putBuckle_does s p (s.capture x)).1]
      rfl
    · rw [buckleReading_noted (by rwa [not_and_or, not_ne_iff] at hconfirms), (putBuckle_does s p _).1]
      exact ⟨_, s.ru.records[p], rfl, by simp⟩
  refine ⟨by rw [hss], by rw [hcl], ?_, ?_⟩
  · rw [hbuckles, set_getElem_fin, if_neg hq]
  · rw [hrecords, set_getElem_fin, if_neg hq]

/-! ## A reply's samples -/

/-- A place sample goes to the position that the routing names for its place (R7). -/
def State.giveTo (s : State) (x : PlaceSample) : Option Pos → State
  | some p => (s.arrive p x).buckleReading p x.buckle
  | none => s

def State.give (s : State) (st : Station) (k : Place) (x : PlaceSample) : State := s.giveTo x s.sm.routing[st][k]

theorem give_routing (s : State) (st : Station) (k : Place) (x : PlaceSample) : (s.give st k x).sm.routing = s.sm.routing := by
  unfold State.give State.giveTo
  split <;> simp

theorem give_untouched (s : State) {st : Station} {q : Pos} {k : Place} (hq : s.sm.routing[st][k] ≠ some q) (x : PlaceSample) :
    Untouched s (s.give st k x) q := by
  unfold State.give State.giveTo
  split
  next p hp =>
    have hne : q ≠ p := fun e => hq (e ▸ hp)
    exact (arrive_untouched s hne x).trans (buckleReading_untouched _ hne _)
  · exact .refl s q

theorem deliverSamples_eq (s : State) (st : Station) (samples : List PlaceSample) :
    s.deliverSamples st samples = forEach (([0, 1, 2, 3] : List Place).zip samples) (fun kx u => u.give st kx.1 kx.2) s := rfl

/-- The samples of a reply leave alone every position that the routing of its station does not name. -/
theorem deliverSamples_untouched (s : State) (st : Station) (samples : List PlaceSample) {q : Pos}
    (hq : ∀ k : Place, s.sm.routing[st][k] ≠ some q) : Untouched s (s.deliverSamples st samples) q := by
  rw [deliverSamples_eq]
  refine (forEach_induction (fun t => t.sm.routing = s.sm.routing ∧ Untouched s t q) _ _ s ⟨rfl, .refl s q⟩ ?_).2
  rintro ⟨k, x⟩ t ⟨hrouting, huntouched⟩
  exact ⟨(give_routing t st k x).trans hrouting, huntouched.trans (give_untouched t (hrouting ▸ hq k) x)⟩

/-- Settles O24: the three fates of a sample, and the delivery place by place. -/
theorem arrivalStoresOrDropsTheSample : Obligations.ArrivalStoresOrDropsTheSample := by
  refine ⟨?arrival, ?delivery⟩
  case arrival =>
    rintro s p x ⟨-, hcap, -⟩
    obtain ⟨hss, hcl, hvp⟩ := arrive_does s p x
    obtain ⟨hkept, hscheduled, hqueue⟩ := received_keeps s p x
    obtain ⟨hhead, hfree, hbuckets, hchain, hothers, heval⟩ := (s.received p x).ss.schedule_keeps p (s.bankInForce p).w
    dsimp only
    rw [hcl, hvp, hss]
    refine ⟨fun q hq => (hothers q hq).trans (hkept q hq).1, fun hlen hroom => ?store, fun hlen hidle => ?displace,
      fun hnone => ?drop, ?_⟩
    case store =>
      obtain ⟨hfree', hhead', -, hchain', -, hsample, htime⟩ := s.ss.store_does p x s.tb.time
      rw [hchain, hfree, hhead, hbuckets, received_store x hlen hroom]
      dsimp only
      rw [hchain']
      exact ⟨rfl, hfree', rfl, hhead', hsample, htime, rfl, rfl, rfl⟩
    case displace =>
      have hlong : 2 ≤ s.ss.chains[p].len := by omega
      obtain ⟨hfree', -, hchain', -, hsample, htime⟩ := SampleStore.displace_does hlong x s.tb.time
      rw [hchain, hfree, hbuckets, received_displace x hlen hidle]
      dsimp only
      rw [hchain']
      exact ⟨rfl, hfree', rfl, rfl, hsample, htime, rfl, rfl, rfl⟩
    case drop =>
      obtain ⟨hss', hold, hnew⟩ := dropSample_does s p
      have hchain' : (s.dropSample p).ss.chains[p] = { s.ss.chains[p] with loss := true } := by
        rw [hss', upd_getElem_fin, if_pos rfl]
      unfold EventGoesOut
      rw [hchain, hfree, hbuckets, hvp, received_drop x hnone, hchain', hss']
      refine ⟨rfl, rfl, rfl, rfl, ?_, fun h => (hnew h).2, fun h => (hold h).2⟩
      cases hlost : s.cl[p].quality.sampleLoss with
      | true => rw [(hold hlost).1, hlost]
      | false => rw [(hnew hlost).1, upd_getElem_fin, if_pos rfl]
    rw [heval, hchain, hscheduled, hqueue]
  case delivery =>
    intro s st a b c d give
    have hgive (u : State) (hu : u.sm.routing = s.sm.routing) (k : Place) (x : PlaceSample) : give u k x = u.give st k x :=
      congrArg (u.giveTo x) (by rw [hu])
    have hone := hgive s rfl 0 a
    have htwo := hgive (s.give st 0 a) (give_routing ..) 1 b
    have hthree := hgive ((s.give st 0 a).give st 1 b) (by simp only [give_routing]) 2 c
    have hfour := hgive (((s.give st 0 a).give st 1 b).give st 2 c) (by simp only [give_routing]) 3 d
    rw [hone, htwo, hthree, hfour]
    refine ⟨?_, ?_, ?_, ?_, fun q hq => deliverSamples_untouched s st [a, b, c, d] hq⟩
    all_goals
      simp only [deliverSamples_eq, forEach, List.zip_cons_cons, List.zip_nil_right, List.foldl_cons, List.foldl_nil]

end Sys2Proof.Machine
end

section
/-! What the blocks hold for one position, and how the operations of CL and RU and a flush change it (R14, R62, R93, R106, R118). -/

namespace Sys2Proof.Machine

/-! ## The view of a position -/

/-- What SS, CL and RU hold for one position. -/
structure PositionView where
  chain : Chain
  cls : ClassRecord
  buckle : Buckle
  record : ReminderRecord

def State.view (s : State) (p : Pos) : PositionView := ⟨s.ss.chains[p], s.cl[p], s.ru.buckles[p], s.ru.records[p]⟩

theorem view_cls (s : State) (p : Pos) : (s.view p).cls = s.cl[p] := rfl

theorem untouched_iff {s t : State} {q : Pos} : Untouched s t q ↔ t.view q = s.view q := by
  simp [Untouched, State.view]

/-- The view of a position is SS, CL and RU. -/
theorem view_congr {s t : State} (hss : t.ss = s.ss) (hcl : t.cl = s.cl) (hru : t.ru = s.ru) (q : Pos) : t.view q = s.view q := by
  unfold State.view
  rw [hss, hcl, hru]

/-- The quality flags of a position change. -/
def PositionView.flag (v : PositionView) (f : Quality → Quality) : PositionView :=
  { v with cls := { v.cls with quality := f v.cls.quality } }

/-- The reminder record of a position that CL hands a class `c` on for, UNKNOWN or NOT_CONFIGURED (R117, R118). -/
def ReminderRecord.blanked (r : ReminderRecord) (c : Cls) : ReminderRecord :=
  if c = .unknown then
    match r.state with
    | .pending | .stage1 | .stage2 | .expired => r.toSuspended
    | .buckled => .toInactive
    | .inactive | .suspended => r
  else .toInactive

/-- A position after a flush that leaves it in class `c`, with RU's reset of the buckle where `resets` holds (R14, R62, R93). -/
def PositionView.flushed (v : PositionView) (c : Cls) (resets : Bool) : PositionView where
  chain := flushedChain v.chain
  cls := { v.cls with committed := c, supp := c.suppression, candidate := none, confirm := 0, disturbedRun := 0,
                      quality := { v.cls.quality with rough := false } }
  buckle := if resets then { v.buckle with last := none, confirmed := none } else v.buckle
  record := if c = v.cls.committed then v.record else v.record.blanked c

/-! ## Operations of one position -/

/-- A quality update changes the flags of its position alone. -/
theorem setQuality_view (s : State) (p q : Pos) (f : Quality → Quality) :
    (s.setQuality p f).view q = if q = p then (s.view p).flag f else s.view q := by
  unfold State.view
  rw [(setQuality_does s p f).1, upd_getElem_fin]
  split
  next hq =>
    subst hq
    rfl
  · rfl

theorem State.blankClass_or (s : State) (p : Pos) : s.blankClass p = .unknown ∨ s.blankClass p = .notConfigured := by
  unfold State.blankClass
  split
  · exact .inl rfl
  · exact .inr rfl

/-- The class that a flush hands on is UNKNOWN or NOT_CONFIGURED, and the record follows it alone (R117, R118). -/
theorem recordAfterClass_blank (s : State) (p : Pos) (old : Cls) :
    s.recordAfterClass p old (s.blankClass p) = s.ru.records[p].blanked (s.blankClass p) := by
  unfold ReminderRecord.blanked State.recordAfterClass
  rcases s.blankClass_or p with h | h <;>
    rw [h] <;> rfl

/-- A change to the blank class changes one position's class record and, for a new class, its reminder (R95, R117, R118). -/
theorem setClass_blank_view (s : State) (p q : Pos) :
    (s.setClass p (s.blankClass p)).view q = if q = p then { s.view p with
      cls := { s.cl[p] with committed := s.blankClass p, supp := (s.blankClass p).suppression }
      record := if s.blankClass p = s.cl[p].committed then s.ru.records[p] else s.ru.records[p].blanked (s.blankClass p) }
      else s.view q := by
  have hss : (s.setClass p (s.blankClass p)).ss = s.ss := by simp
  have hru : (s.setClass p (s.blankClass p)).ru = s.ru.put p
      (if s.blankClass p = s.cl[p].committed then s.ru.records[p] else s.ru.records[p].blanked (s.blankClass p)) := by
    rw [setClass_ru, reminderClass_ru, recordAfterClass_blank]
    split
    · exact (s.ru.put_same p).symm
    · rfl
  unfold State.view
  rw [hss, hru, setClass_cl]
  dsimp only [ReminderUnit.put]
  rw [upd_getElem_fin, set_getElem_fin]
  split
  next hq =>
    subst hq
    rfl
  · rfl

theorem resetBuckle_view (s : State) (p q : Pos) :
    (s.resetBuckle p).view q = if q = p then { s.view p with buckle := { s.ru.buckles[p] with last := none, confirmed := none } }
      else s.view q := by
  have hss : (s.resetBuckle p).ss = s.ss := by simp
  have hcl : (s.resetBuckle p).cl = s.cl := by simp
  have hru : (s.resetBuckle p).ru = { s.ru with
      buckles := s.ru.buckles.set p { s.ru.buckles[p] with last := none, confirmed := none } } := (putBuckle_does ..).1
  unfold State.view
  rw [hss, hcl, hru]
  dsimp only
  rw [set_getElem_fin]
  split
  next hq =>
    subst hq
    rfl
  · rfl

/-- CL's part of a flush (R93). -/
theorem flushClass_view (s : State) (p q : Pos) :
    (s.flushClass p).view q =
      if q = p then { (s.view p).flushed (s.blankClass p) false with chain := s.ss.chains[p] } else s.view q := by
  let cleared : State := { s with cl := upd s.cl p fun r => { r with candidate := none, confirm := 0, disturbedRun := 0 } }
  let smooth := cleared.setQuality p fun q => { q with rough := false }
  have hcleared (r : Pos) : cleared.view r = { s.view r with cls := cleared.cl[r] } := rfl
  have hrecord (r : Pos) : cleared.cl[r] =
      if r = p then { s.cl[p] with candidate := none, confirm := 0, disturbedRun := 0 } else s.cl[r] := by
    refine (upd_getElem_fin ..).trans ?_
    split
    next hr =>
      subst hr
      rfl
    · rfl
  have hblank : smooth.blankClass p = s.blankClass p := rfl
  have hsmooth (r : Pos) : smooth.view r = if r = p then (cleared.view p).flag fun q => { q with rough := false } else cleared.view r :=
    setQuality_view ..
  have hp : smooth.view p = (cleared.view p).flag fun q => { q with rough := false } := (hsmooth p).trans (if_pos rfl)
  have hcls : smooth.cl[p] = ((cleared.view p).flag fun q => { q with rough := false }).cls := congrArg PositionView.cls hp
  have hrec : smooth.ru.records[p] = s.ru.records[p] := rfl
  have hclass := setClass_blank_view smooth p q
  rw [hblank, hcls, hrec, hp, hsmooth, hcleared, hrecord, if_pos rfl] at hclass
  refine hclass.trans ?_
  split
  · rfl
  next hq =>
    rw [hcleared, hrecord, if_neg hq]
    rfl

/-- A flush changes one position (R14, R62, R93). -/
theorem flush_view (s : State) (p q : Pos) (b : Bool) :
    (s.flush p b).view q = if q = p then (s.view p).flushed (s.blankClass p) b else s.view q := by
  let emptied : State := { s with ss := s.ss.flush p }
  obtain ⟨hchain, -, -, hothers⟩ := s.ss.flush_does p
  have hemptied (r : Pos) : emptied.view r = if r = p then { s.view p with chain := flushedChain s.ss.chains[p] } else s.view r := by
    split
    next hr =>
      subst hr
      exact congrArg (fun c => ({ s.view r with chain := c } : PositionView)) hchain
    next hr => exact congrArg (fun c => ({ s.view r with chain := c } : PositionView)) (hothers r hr)
  have hclass (r : Pos) : (emptied.flushClass p).view r = if r = p then (s.view p).flushed (s.blankClass p) false else s.view r := by
    refine (flushClass_view ..).trans ?_
    rw [hemptied, hemptied, if_pos rfl]
    split
    · exact congrArg (fun c => ({ (s.view p).flushed (s.blankClass p) false with chain := c } : PositionView)) hchain
    · rfl
  unfold State.flush
  dsimp only
  cases b with
  | false => exact hclass q
  | true =>
    have hp := hclass p
    rw [if_pos rfl] at hp
    have hbuckle : (emptied.flushClass p).ru.buckles[p] = s.ru.buckles[p] := congrArg PositionView.buckle hp
    refine (resetBuckle_view ..).trans ?_
    rw [hp, hbuckle, hclass]
    split
    · rfl
    · rfl

/-! ## Runs over distinct positions -/

/-- A run whose steps each change their own entry alone changes each entry of the run once; `look` reads the entries, and `I` is what
the run keeps of the state. -/
theorem forEach_at {ι β : Type} [DecidableEq ι] (look : State → ι → β) (I : State → Prop) {f : ι → State → State} {g : ι → β → β}
    (hI : ∀ i t, I t → I (f i t)) (hf : ∀ i t, I t → ∀ j, look (f i t) j = if j = i then g i (look t i) else look t j)
    {xs : List ι} (hxs : xs.Nodup) {s : State} (hs : I s) (j : ι) :
    look (forEach xs f s) j = if j ∈ xs then g j (look s j) else look s j := by
  induction xs generalizing s with
  | nil => rfl
  | cons i xs ih =>
    obtain ⟨hi, hxs⟩ := List.nodup_cons.mp hxs
    refine (ih hxs (hI i s hs)).trans ?_
    rw [hf i s hs]
    by_cases hj : j = i
    · subst hj
      simp [hi]
    · simp [hj]

/-- A run over distinct positions, each of whose steps changes its own position alone. -/
theorem forEach_view (I : State → Prop) {f : Pos → State → State} {g : Pos → PositionView → PositionView}
    (hI : ∀ p t, I t → I (f p t)) (hf : ∀ p t, I t → ∀ q, (f p t).view q = if q = p then g p (t.view p) else t.view q)
    {ps : List Pos} (hps : ps.Nodup) {s : State} (hs : I s) (q : Pos) :
    (forEach ps f s).view q = if q ∈ ps then g q (s.view q) else s.view q := forEach_at State.view I hI hf hps hs q

/-- Flushes of distinct positions. -/
theorem forEach_flush_view {ps : List Pos} (hps : ps.Nodup) (b : Bool) (s : State) (q : Pos) :
    (forEach ps (fun p t => t.flush p b) s).view q = if q ∈ ps then (s.view q).flushed (s.blankClass q) b else s.view q := by
  refine forEach_view (fun t => t.tables = s.tables) (g := fun p v => v.flushed (s.blankClass p) b) ?_ ?_ hps rfl q
  · intro p t ht
    simpa using ht
  · intro p t ht r
    have hblank : t.blankClass p = s.blankClass p := by
      unfold State.blankClass State.fitted State.entry
      rw [ht]
    rw [flush_view, hblank]

/-- Flag changes of distinct positions. -/
theorem forEach_setQuality_view {ps : List Pos} (hps : ps.Nodup) (f : Pos → Quality → Quality) (s : State) (q : Pos) :
    (forEach ps (fun p t => t.setQuality p (f p)) s).view q = if q ∈ ps then (s.view q).flag (f q) else s.view q :=
  forEach_view (fun _ => True) (g := fun p v => v.flag (f p)) (fun _ _ _ => trivial) (fun p t _ r => setQuality_view t p r (f p)) hps
    trivial q

/-! ## Events -/

theorem OnlyReminders.events {s t : State} (h : OnlyReminders s t) : t.vp.events = s.vp.events := by
  unfold OnlyReminders at h
  rw [h]
  rfl

theorem giveSuppression_events (s : State) : s.giveSuppression.vp.events = s.vp.events := by
  rw [(giveSuppression_does s).2.1]
  rfl

@[simp] theorem setClass_events (s : State) (p : Pos) (c : Cls) : (s.setClass p c).vp.events = s.vp.events := by
  have hhanded (t : State) : (t.handClass p c).vp.events = t.vp.events := rfl
  unfold State.setClass
  dsimp only
  split
  · rfl
  · split
    · rw [giveSuppression_events, hhanded, (onlyReminders_reminderClass _ p _ c).events]
    · rw [hhanded, (onlyReminders_reminderClass _ p _ c).events]

@[simp] theorem flush_events (s : State) (p : Pos) (b : Bool) : (s.flush p b).vp.events = s.vp.events := by
  unfold State.flush State.resetBuckle State.flushClass
  dsimp only
  split <;> simp

theorem forEach_events {α : Type} {f : α → State → State} (hf : ∀ x t, (f x t).vp.events = t.vp.events) (xs : List α) (s : State) :
    (forEach xs f s).vp.events = s.vp.events := forEach_keeps (fun t => t.vp.events) xs f s hf

end Sys2Proof.Machine
end

section
/-! A station that SM takes up: its calibration, its place check, and the events of both (R5, R11 to R13, R144). -/

namespace Sys2Proof.Machine

theorem allPos_nodup : allPos.Nodup := by decide

/-! ## The routed positions -/

theorem routedPlace_congr {s t : State} (h : t.sm.routing = s.sm.routing) (st : Station) : t.routedPlace st = s.routedPlace st := by
  funext p
  unfold State.routedPlace
  rw [h]

theorem mem_routedPositions {s : State} {st : Station} {q : Pos} :
    q ∈ s.routedPositions st ↔ (s.routedPlace st q).isSome = true := by
  simp [State.routedPositions, mem_allPos]

theorem routedPositions_nodup (s : State) (st : Station) : (s.routedPositions st).Nodup := allPos_nodup.filter _

/-! ## The calibration -/

/-- No entry is found for a node exactly where none names it (R13). -/
theorem findCalibration_isNone_iff {t : Tables} {node : Byte} :
    (t.findCalibration node).isNone = true ↔ ¬ ∃ e : Fin 16, t.calibration[e].nodeId = node := by
  simp [Tables.findCalibration, mem_allPos]

/-- A calibration lookup sets DEFAULT_CAL of the station's positions where no entry names the node (R13). -/
theorem lookupCalibration_view (s : State) (st : Station) (q : Pos) :
    (s.lookupCalibration st).view q = if (s.routedPlace st q).isSome then
      (s.view q).flag fun k => { k with defaultCal := (s.tables.findCalibration s.sm.nodes[st].nodeId).isNone } else s.view q := by
  unfold State.lookupCalibration
  dsimp only
  refine (forEach_setQuality_view (routedPositions_nodup _ st) _ _ q).trans ?_
  simp only [mem_routedPositions]
  rfl

theorem reviewDefaultCal_view (s : State) (st : Station) (q : Pos) :
    (s.reviewDefaultCal st).view q = if (s.routedPlace st q).isSome then
      (s.view q).flag fun k => { k with defaultCal := s.sm.nodes[st].calIndex.isNone } else s.view q := by
  refine (forEach_setQuality_view (routedPositions_nodup s st) _ s q).trans ?_
  simp only [mem_routedPositions]

theorem lookupCalibration_events (s : State) (st : Station) : (s.lookupCalibration st).vp.events = s.vp.events :=
  forEach_events (fun _ _ => setQuality_events ..) _ _

theorem reviewDefaultCal_events (s : State) (st : Station) : (s.reviewDefaultCal st).vp.events = s.vp.events :=
  forEach_events (fun _ _ => setQuality_events ..) _ _

/-- CAL_MISSING is queued where no entry names the node of the station, looked up (R5, R11, R13). -/
theorem reportCalMissing_queued {s : State} {st : Station}
    (h : s.sm.nodes[st].calIndex = s.tables.findCalibration s.sm.nodes[st].nodeId) :
    EventsQueued s.vp (s.reportCalMissing st).vp (calMissingEvents s st s.sm.nodes[st].nodeId) := by
  unfold State.reportCalMissing calMissingEvents
  rw [h]
  split
  next hnone =>
    rw [if_neg (findCalibration_isNone_iff.mp hnone)]
    exact (stationEvent_taken ..).queued
  next hsome =>
    rw [if_pos (not_not.mp (mt findCalibration_isNone_iff.mpr hsome))]
    exact eventsQueued_none rfl

/-! ## The place check -/

/-- The PLACE_MISSING event of one position (R12). -/
def placeMissingAt (s : State) (placeOf : Pos → Option Place) (places : Nat) (q : Pos) : List EventRecord :=
  match placeOf q with
  | some k => if places ≤ k.val then [eventOf s .placeMissing (BitVec.ofNat 8 q.val) (BitVec.ofNat 8 places) 0] else []
  | none => []

theorem placeMissingEvents_eq (s : State) (placeOf : Pos → Option Place) (places : Nat) :
    placeMissingEvents s placeOf places = allPos.flatMap (placeMissingAt s placeOf places) := rfl

/-- The flags of a position whose place is `place`, after the place check of a station with `places` places (R12). -/
def placeChecked (place : Option Place) (places : Nat) (k : Quality) : Quality :=
  match place with
  | some j => { k with linkDown := decide (places ≤ j.val) }
  | none => k

theorem placeChecked_some (j : Place) (places : Nat) :
    placeChecked (some j) places = fun k => { k with linkDown := decide (places ≤ j.val) } := rfl

theorem checkPlace_view (s : State) (st : Station) (p q : Pos) :
    (s.checkPlace st p).view q =
      if q = p then (s.view p).flag (placeChecked (s.routedPlace st p) s.sm.nodes[st].places) else s.view q := by
  have hevent (t : State) (k : EventKind) (a b : Byte) : (t.positionEvent k p a b).view q = t.view q := rfl
  unfold State.checkPlace
  split
  next hplace =>
    rw [hplace]
    split
    next hq => rw [hq]; rfl
    · rfl
  next k hplace =>
    rw [hplace]
    dsimp only
    split
    next hmissing =>
      rw [hevent, setQuality_view, placeChecked_some, decide_eq_true hmissing]
    next hpresent => rw [setQuality_view, placeChecked_some, decide_eq_false hpresent]

theorem checkPlace_queued (s : State) (st : Station) (p : Pos) :
    EventsQueued s.vp (s.checkPlace st p).vp (placeMissingAt s (s.routedPlace st) s.sm.nodes[st].places p) := by
  unfold State.checkPlace placeMissingAt
  cases s.routedPlace st p with
  | none => exact eventsQueued_none rfl
  | some k =>
    dsimp only
    split
    · exact (positionEvent_taken (s.setQuality p fun k => { k with linkDown := true }) .placeMissing p ..).queued.congr rfl rfl
    · exact eventsQueued_none rfl

/-- What the place checks of a run read of the state. -/
def SameStations (s t : State) : Prop := t.sm = s.sm ∧ t.tb.time = s.tb.time

theorem SameStations.checkPlace {s t : State} (h : SameStations s t) (st : Station) (p : Pos) :
    SameStations s (t.checkPlace st p) := by
  unfold SameStations at h ⊢
  simpa using h

/-- The place check sets LINK_DOWN of the station's positions at or above its place count (R12). -/
theorem placeCheck_view (s : State) (st : Station) (q : Pos) :
    (s.placeCheck st).view q = (s.view q).flag (placeChecked (s.routedPlace st q) s.sm.nodes[st].places) := by
  have hrun : (s.placeCheck st).view q = if q ∈ s.routedPositions st then
      (s.view q).flag (placeChecked (s.routedPlace st q) s.sm.nodes[st].places) else s.view q := by
    refine forEach_view (SameStations s) (g := fun p v => v.flag (placeChecked (s.routedPlace st p) s.sm.nodes[st].places))
      (fun p t ht => ht.checkPlace st p) (fun p t ht r => ?_) (routedPositions_nodup s st) ⟨rfl, rfl⟩ q
    rw [checkPlace_view, routedPlace_congr (congrArg StationManager.routing ht.1), ht.1]
  rw [hrun]
  split
  · rfl
  next hnot =>
    rw [mem_routedPositions, Option.not_isSome_iff_eq_none] at hnot
    rw [hnot]
    rfl

theorem flatMap_filter_of_nil {α β : Type} {keep : α → Bool} {f : α → List β} (h : ∀ x, keep x = false → f x = []) (xs : List α) :
    (xs.filter keep).flatMap f = xs.flatMap f := by
  induction xs with
  | nil => rfl
  | cons x xs ih =>
    cases hx : keep x with
    | true => rw [List.filter_cons_of_pos hx, List.flatMap_cons, List.flatMap_cons, ih]
    | false => rw [List.filter_cons_of_neg (by simp [hx]), List.flatMap_cons, h x hx, ih, List.nil_append]

/-- The place check queues a PLACE_MISSING for each position at or above the place count, ascending (R12, R144). -/
theorem placeCheck_queued (s : State) (st : Station) :
    EventsQueued s.vp (s.placeCheck st).vp (placeMissingEvents s (s.routedPlace st) s.sm.nodes[st].places) := by
  have hrun : EventsQueued s.vp (s.placeCheck st).vp
      ((s.routedPositions st).flatMap (placeMissingAt s (s.routedPlace st) s.sm.nodes[st].places)) := by
    refine eventsQueued_forEach (SameStations s) (fun p t ht => ht.checkPlace st p) (fun p t ht => ?_) _ ⟨rfl, rfl⟩
    have hqueued := checkPlace_queued t st p
    unfold placeMissingAt at hqueued ⊢
    rwa [routedPlace_congr (congrArg StationManager.routing ht.1), ht.1, eventOf_congr ht.2] at hqueued
  rw [placeMissingEvents_eq]
  unfold State.routedPositions at hrun
  rwa [flatMap_filter_of_nil] at hrun
  intro q hq
  rw [Option.isSome_eq_false_iff, Option.isNone_iff_eq_none] at hq
  unfold placeMissingAt
  rw [hq]

/-! ## The checks that follow a new node -/

/-- CAL_MISSING, the place check and DEFAULT_CAL of a station whose node has been looked up (R5, R11). -/
def State.checkStation (s : State) (st : Station) : State := ((s.reportCalMissing st).placeCheck st).reviewDefaultCal st

theorem seatChange_eq (s : State) (st : Station) (node : Byte) (places latency : Nat) :
    s.seatChange st node places latency = State.checkStation (State.stationEvent
      (((s.flushStation st).setNode st fun n => { n with
        nodeId := node, places := places, misses := 0, latency := latency, hopReported := false }).lookupCalibration st)
      .seatChanged st (s.flushStation st).sm.nodes[st].nodeId node) st := rfl

/-- The flags of a position of a station that has been taken up with `places` places (R5, R11, R12). -/
def stationChecked (place : Option Place) (places : Nat) (missing : Bool) (k : Quality) : Quality :=
  match place with
  | some j => { k with linkDown := decide (places ≤ j.val), defaultCal := missing }
  | none => k

theorem reportCalMissing_view (s : State) (st : Station) (q : Pos) : (s.reportCalMissing st).view q = s.view q :=
  view_congr (by simp) (by simp) (by simp) q

theorem checkStation_view (s : State) (st : Station) (q : Pos) :
    (s.checkStation st).view q =
      (s.view q).flag (stationChecked (s.routedPlace st q) s.sm.nodes[st].places s.sm.nodes[st].calIndex.isNone) := by
  have hsm : (s.reportCalMissing st).sm = s.sm := by simp
  have hsm' : ((s.reportCalMissing st).placeCheck st).sm = s.sm := by simp
  unfold State.checkStation
  rw [reviewDefaultCal_view, placeCheck_view, reportCalMissing_view, routedPlace_congr (congrArg StationManager.routing hsm'),
    routedPlace_congr (congrArg StationManager.routing hsm), hsm, hsm']
  cases s.routedPlace st q with
  | none => rfl
  | some k => rfl

theorem checkStation_queued {s : State} {st : Station}
    (h : s.sm.nodes[st].calIndex = s.tables.findCalibration s.sm.nodes[st].nodeId) :
    EventsQueued s.vp (s.checkStation st).vp (calMissingEvents s st s.sm.nodes[st].nodeId ++
      placeMissingEvents s (s.routedPlace st) s.sm.nodes[st].places) := by
  have hsm : (s.reportCalMissing st).sm = s.sm := by simp
  have htb : (s.reportCalMissing st).tb.time = s.tb.time := by simp
  have hplaces := placeCheck_queued (s.reportCalMissing st) st
  have hrecords : placeMissingEvents (s.reportCalMissing st) (s.routedPlace st) s.sm.nodes[st].places =
      placeMissingEvents s (s.routedPlace st) s.sm.nodes[st].places := by
    unfold placeMissingEvents
    rw [eventOf_congr htb]
  rw [routedPlace_congr (congrArg StationManager.routing hsm), hsm, hrecords] at hplaces
  exact (reportCalMissing_queued h).append (hplaces.congr rfl (reviewDefaultCal_events ..))

/-- The events of a station that is taken up with a first event, in a part that stands at `u` once that event is queued. -/
theorem checkStation_queued_after {s u : State} {st : Station} {first : EventRecord} {n : Node} (hfirst : EventTaken s.vp u.vp first)
    (hnode : u.sm.nodes[st] = n) (hlooked : n.calIndex = s.tables.findCalibration n.nodeId)
    (hrouting : u.sm.routing = s.sm.routing) (htables : u.tables = s.tables) (htime : u.tb.time = s.tb.time) :
    EventsQueued s.vp (u.checkStation st).vp
      ([first] ++ calMissingEvents s st n.nodeId ++ placeMissingEvents s (s.routedPlace st) n.places) := by
  subst hnode
  have hchecked := checkStation_queued (s := u) (st := st) (by rw [hlooked, htables])
  unfold calMissingEvents placeMissingEvents at hchecked ⊢
  rw [htables, eventOf_congr htime, routedPlace_congr hrouting] at hchecked
  rw [List.append_assoc]
  exact hfirst.queued.append hchecked

end Sys2Proof.Machine
end

section
/-! REPLY_RECEIVED, and what SM does with a GOOD reply (R5 to R9, R12, R13, R26, R31). -/

namespace Sys2Proof.Machine

/-! ## An activation -/

/-- The event of an activation (R5). -/
def activationRecord (s : State) (st : Station) (old : Node) (node : Byte) (places : Nat) : EventRecord :=
  let number : Byte := BitVec.ofNat 8 (st.val + 1)
  match old.state with
  | .linkLost => if old.nodeId = node then eventOf s .linkRestored number node 0 else eventOf s .seatChanged number old.nodeId node
  | .absent | .active => eventOf s .stationFound number node (BitVec.ofNat 8 places)

theorem activationRecord_eq (s : State) (st : Station) (old : Node) (node : Byte) (places : Nat) :
    let number : Byte := BitVec.ofNat 8 (st.val + 1)
    let first := activationRecord s st old node places
    (old.state = .absent → first = eventOf s .stationFound number node (BitVec.ofNat 8 places)) ∧
    (old.state = .linkLost → old.nodeId = node → first = eventOf s .linkRestored number node 0) ∧
    (old.state = .linkLost → old.nodeId ≠ node → first = eventOf s .seatChanged number old.nodeId node) := by
  dsimp only
  unfold activationRecord
  refine ⟨fun habsent => ?_, fun hlost hsame => ?_, fun hlost hother => ?_⟩
  · rw [habsent]
  · rw [hlost]
    exact if_pos hsame
  · rw [hlost]
    exact if_neg hother

theorem activationEvent_taken (s : State) (st : Station) (old : Node) (node : Byte) (places : Nat) :
    EventTaken s.vp (s.activationEvent st old node places).vp (activationRecord s st old node places) := by
  unfold State.activationEvent activationRecord
  cases old.state with
  | linkLost =>
    dsimp only
    split
    · exact stationEvent_taken ..
    · exact stationEvent_taken ..
  | absent => exact stationEvent_taken ..
  | active => exact stationEvent_taken ..

section
variable (s : State) (st : Station) (node : Byte) (places latency : Nat)

/-- The part when an activation has written and looked up the station's record. -/
def State.activated : State :=
  (s.setNode st fun n => { n with
    state := .active, nodeId := node, places := places, misses := 0, latency := latency, hopReported := false }).lookupCalibration st

theorem activate_checks : s.activate st node places latency =
    ((s.activated st node places latency).activationEvent st s.sm.nodes[st] node places).checkStation st := rfl

theorem activated_node : (s.activated st node places latency).sm.nodes[st] = { s.sm.nodes[st] with
    state := .active, nodeId := node, places := places, misses := 0, latency := latency, hopReported := false,
    calIndex := s.tables.findCalibration node } := by
  unfold State.activated
  rw [lookupCalibration_sm, setNode_sm]
  dsimp only
  rw [upd_at, upd_at]
  rfl

theorem activated_view (q : Pos) :
    (s.activated st node places latency).view q = if (s.routedPlace st q).isSome then
      (s.view q).flag fun k => { k with defaultCal := (s.tables.findCalibration node).isNone } else s.view q := by
  unfold State.activated
  rw [lookupCalibration_view, setNode_sm]
  dsimp only
  rw [upd_at]
  rfl

theorem activated_kept : (s.activated st node places latency).sm.routing = s.sm.routing ∧
    (s.activated st node places latency).tables = s.tables ∧ (s.activated st node places latency).tb.time = s.tb.time := by
  unfold State.activated
  rw [lookupCalibration_sm]
  simp

/-- An activation checks the station's positions, and no other position changes (R5, R12, R13). -/
theorem activate_view (q : Pos) : (s.activate st node places latency).view q =
    (s.view q).flag (stationChecked (s.routedPlace st q) places (s.tables.findCalibration node).isNone) := by
  have hrouting := (activated_kept s st node places latency).1
  have hnode := activated_node s st node places latency
  have hview := activated_view s st node places latency q
  rw [activate_checks]
  generalize s.activated st node places latency = u at hrouting hnode hview ⊢
  have hsm : (u.activationEvent st s.sm.nodes[st] node places).sm = u.sm := by simp
  have hsame : (u.activationEvent st s.sm.nodes[st] node places).view q = u.view q := view_congr (by simp) (by simp) (by simp) q
  have hrouted : (u.activationEvent st s.sm.nodes[st] node places).routedPlace st = s.routedPlace st :=
    routedPlace_congr (by rw [hsm, hrouting]) st
  rw [checkStation_view, hrouted, hsame, hview, hsm, hnode]
  cases s.routedPlace st q with
  | none => rfl
  | some k => rfl

/-- The events of an activation: its own, then those of its checks (R5, R11 to R13). -/
theorem activate_queued : EventsQueued s.vp (s.activate st node places latency).vp
    ([activationRecord s st s.sm.nodes[st] node places] ++ calMissingEvents s st node ++
      placeMissingEvents s (s.routedPlace st) places) := by
  obtain ⟨hrouting, htables, htime⟩ := activated_kept s st node places latency
  have hnode := activated_node s st node places latency
  have hevents : (s.activated st node places latency).vp.events = s.vp.events := lookupCalibration_events ..
  rw [activate_checks]
  generalize s.activated st node places latency = u at hrouting htables htime hnode hevents ⊢
  have hfirst := activationEvent_taken u st s.sm.nodes[st] node places
  unfold activationRecord at hfirst ⊢
  rw [eventOf_congr htime] at hfirst
  have hsm : (u.activationEvent st s.sm.nodes[st] node places).sm = u.sm := by simp
  have htables' : (u.activationEvent st s.sm.nodes[st] node places).tables = s.tables := by simp [htables]
  have htime' : (u.activationEvent st s.sm.nodes[st] node places).tb.time = s.tb.time := by simp [htime]
  generalize u.activationEvent st s.sm.nodes[st] node places = v at hfirst hsm htables' htime' ⊢
  rw [← hsm] at hnode hrouting
  exact checkStation_queued_after (hfirst.congr hevents.symm rfl) hnode rfl hrouting htables' htime'

/-- An activation touches SM, CL and VP alone (R5). -/
theorem activate_only : s.activate st node places latency = { s with
    sm := (s.activate st node places latency).sm, cl := (s.activate st node places latency).cl
    vp := (s.activate st node places latency).vp } := by
  have hframe := activate_frame s st node places latency
  generalize s.activate st node places latency = t at hframe ⊢
  obtain ⟨⟩ := t
  obtain ⟨rfl, rfl, rfl, rfl, rfl, rfl, rfl, rfl, rfl, rfl, rfl, rfl, rfl⟩ := hframe
  rfl

end

/-! ## A reply of an ACTIVE station -/

/-- A GOOD reply that bears the record out writes the latency and clears the counts (R6, R7). -/
def State.confirmReply (s : State) (st : Station) (latency : Nat) : State :=
  { s with sm := { s.sm with
    nodes := s.sm.nodes.set st { s.sm.nodes[st] with misses := 0, latency := latency, hopReported := false } } }

section
variable (s : State) {st : Station} {node : Byte} {places : Nat} (latency : Nat) (samples : List PlaceSample)

theorem reply_confirms (hnode : s.sm.nodes[st].nodeId = node) (hplaces : s.sm.nodes[st].places = places) :
    s.identifyActive st node places latency = s.confirmReply st latency ∧
    s.sampleActive st node places latency samples = (s.confirmReply st latency).deliverSamples st samples := by
  unfold State.identifyActive State.sampleActive
  dsimp only
  rw [if_pos ⟨hnode, hplaces⟩, if_neg (not_not.mpr hnode), if_neg (not_not.mpr hplaces)]
  exact ⟨rfl, rfl⟩

theorem reply_otherPlaces (hnode : s.sm.nodes[st].nodeId = node) (hplaces : s.sm.nodes[st].places ≠ places) :
    s.identifyActive st node places latency = s.seatChange st node places latency ∧
    s.sampleActive st node places latency samples =
      State.miss { s with sm := { s.sm with
        nodes := s.sm.nodes.set st { s.sm.nodes[st] with latency := latency, hopReported := false } } } st := by
  unfold State.identifyActive State.sampleActive
  dsimp only
  rw [if_neg fun h => hplaces h.2, if_neg (not_not.mpr hnode), if_pos hplaces]
  exact ⟨rfl, rfl⟩

theorem reply_otherNode (hnode : s.sm.nodes[st].nodeId ≠ node) :
    s.identifyActive st node places latency = s.seatChange st node places latency ∧
    s.sampleActive st node places latency samples = s.seatChange st node places latency := by
  unfold State.identifyActive State.sampleActive
  dsimp only
  rw [if_neg fun h => hnode h.1, if_pos hnode]
  exact ⟨rfl, rfl⟩

end

theorem takeOutcome_sample_inactive {s : State} {st : Station} (latency : Nat) (node : Byte) (places : Nat)
    (samples : List PlaceSample) (hst : s.sm.nodes[st].state ≠ .active) :
    s.takeOutcome st .sample latency (.good node places samples) = s := by
  unfold State.takeOutcome
  cases h : s.sm.nodes[st].state with
  | active => exact absurd h hst
  | absent => rfl
  | linkLost => rfl

/-! ## REPLY_RECEIVED -/

/-- The byte that completes a reply hands the stored frame to its checks (R26, R31). -/
theorem readByte_completes {s : State} {p : Poll} (hframed : s.lc.badlyFramed p.byte = false)
    (hlast : s.lc.completes p.byte = true) :
    s.readByte p = State.takeOutcome { s with lc := { s.lc with buffer := s.lc.buffer ++ [p.byte], poll := none } }
      p.station p.kind (p.latency.getD 0) (frameOutcome p (s.lc.buffer ++ [p.byte])) := by
  unfold State.readByte
  rw [hframed, hlast]
  rfl

/-- Settles O21: the last byte's command, the activation with its events and flags, and the replies of an ACTIVE station case by
case. -/
theorem goodIdentifyActivatesTheStation : Obligations.GoodIdentifyActivatesTheStation := by
  refine ⟨?received, ?taken⟩
  case received =>
    intro s line stop l p start hs hstop hp hph hb hclock hidle hsync hlast
    have hevent : l.event = some .stopBit := LineController.event_stopBit hp hph hb (by omega)
    have hframed : l.badlyFramed p.byte = false := by
      rw [Bool.eq_false_iff, ne_eq, LineController.badlyFramed_iff]
      rintro (h | ⟨hempty, h⟩)
      · omega
      · exact h (hsync hempty)
    have hcompletes : l.completes p.byte = true := by simp [LineController.completes, hlast]
    rw [exec_replyReceived hs hstop hp hevent (.inr hcompletes), readByte_completes hframed hcompletes]
    rfl
  case taken =>
    intro s st latency places node samples n good confirmed
    refine ⟨fun hst => ?activation, fun hst => ?inactive, fun hst => ?active, fun p k hplace hmissing => ?missing⟩
    case inactive => exact takeOutcome_sample_inactive latency node places samples hst
    case activation =>
      rw [show s.takeOutcome st .identify latency good = s.activate st node places latency from
        takeOutcome_identify_inactive latency node places samples hst]
      have hqueued := activate_queued s st node places latency
      obtain ⟨hfound, hrestored, hchanged⟩ := activationRecord_eq s st s.sm.nodes[st] node places
      dsimp only
      refine ⟨?_, ?_, ⟨fun habsent => ?_, fun hlost hsame => ?_, fun hlost hother => ?_⟩, fun q => ?_⟩
      · exact activate_only s st node places latency
      · exact activate_sm s st node places latency
      · rwa [hfound habsent] at hqueued
      · rwa [hrestored hlost hsame] at hqueued
      · rwa [hchanged hlost hother] at hqueued
      · have hcls := congrArg PositionView.cls (activate_view s st node places latency q)
        rw [view_cls] at hcls
        rw [hcls]
        refine ⟨rfl, ?_⟩
        cases s.routedPlace st q with
        | none => rfl
        | some k => rfl
    case active =>
      have hidentify : s.takeOutcome st .identify latency good = _ := takeOutcome_identify_active latency node places samples hst
      have hsample : s.takeOutcome st .sample latency good = _ := takeOutcome_sample_active latency node places samples hst
      rw [hidentify, hsample]
      exact ⟨fun hnode hplaces => reply_confirms s latency samples hnode hplaces,
        fun hnode hplaces => reply_otherPlaces s latency samples hnode hplaces, fun hnode => reply_otherNode s latency samples hnode⟩
    case missing =>
      unfold EventGoesOut State.checkPlace
      rw [hplace]
      dsimp only
      rw [if_pos hmissing]
      exact (positionEvent_taken (s.setQuality p fun k => { k with linkDown := true }) .placeMissing p ..).congr rfl rfl

end Sys2Proof.Machine
end

section
/-! A miss, a link loss and a seat change (R8, R10 to R14, R62, R93, R106, R118). -/

namespace Sys2Proof.Machine

/-! ## The positions of a station are flushed -/

/-- The positions of a station are flushed, and no others (R14). -/
theorem flushStation_view (s : State) (st : Station) (q : Pos) :
    (s.flushStation st).view q =
      if (s.routedPlace st q).isSome then (s.view q).flushed (s.blankClass q) true else s.view q := by
  refine (forEach_flush_view (routedPositions_nodup s st) true s q).trans ?_
  simp only [mem_routedPositions]

theorem flushStation_events (s : State) (st : Station) : (s.flushStation st).vp.events = s.vp.events :=
  forEach_events (fun _ _ => flush_events ..) _ _

/-- The flushes of the positions that a test picks out, in ascending order. -/
theorem queueFlushed_filter (flushed : Pos → Bool) (ss : SampleStore) :
    QueueFlushed ss ((allPos.filter flushed).foldl SampleStore.flush ss) flushed := by
  obtain ⟨hfree, hqueue, -⟩ := SampleStore.flushes_does (allPos.filter flushed) (allPos_nodup.filter _) ss
  refine ⟨?_, hfree⟩
  rw [hqueue]
  refine List.filter_congr fun q _ => ?_
  simp [mem_allPos]

theorem flushStation_ss (s : State) (st : Station) :
    (s.flushStation st).ss = (s.routedPositions st).foldl SampleStore.flush s.ss := forEach_flush_ss ..

theorem flushStation_queue (s : State) (st : Station) :
    QueueFlushed s.ss (s.flushStation st).ss fun q => (s.routedPlace st q).isSome := by
  rw [flushStation_ss]
  exact queueFlushed_filter ..

/-- An escalating reminder is suspended where the class becomes UNKNOWN (R118). -/
theorem blanked_unknown {r : ReminderRecord}
    (h : r.state = .pending ∨ r.state = .stage1 ∨ r.state = .stage2 ∨ r.state = .expired) : r.blanked .unknown = r.toSuspended := by
  unfold ReminderRecord.blanked
  rcases h with h | h | h | h <;>
    rw [if_pos rfl, h]

/-- A position whose view is that of a flush, the quality flags apart, has been flushed for a link loss or a seat change. -/
theorem flushedFor_of_view {s t : State} {q : Pos} {f : Quality → Quality}
    (h : t.view q = ((s.view q).flushed (s.blankClass q) true).flag f) :
    FlushedFor s t q ∧ t.cl[q].quality = f { s.cl[q].quality with rough := false } := by
  have hchain := congrArg PositionView.chain h
  have hcls := congrArg PositionView.cls h
  have hbuckle := congrArg PositionView.buckle h
  have hrecord := congrArg PositionView.record h
  rw [view_cls] at hcls
  refine ⟨⟨hchain, ?_, ?_, ?_, ?_, hbuckle, fun hknown hfitted hescalating => ?_⟩, ?_⟩
  · rw [hcls]
    rfl
  · rw [hcls]
    rfl
  · rw [hcls]
    rfl
  · rw [hcls]
    rfl
  · have hblank : s.blankClass q = .unknown := if_pos hfitted
    have hnew : ¬ Cls.unknown = s.cl[q].committed := fun e => hknown e.symm
    have hsuspended : (t.view q).record = s.ru.records[q].toSuspended := by
      rw [hrecord]
      unfold PositionView.flag PositionView.flushed
      rw [hblank]
      exact (if_neg hnew).trans (blanked_unknown hescalating)
    exact hsuspended
  · rw [hcls]
    rfl

/-! ## A link loss -/

section
variable (s : State) (st : Station)

/-- The station's positions after a link loss (R10). -/
def State.cutOff : State :=
  let t := State.flushStation (s.setNode st fun n => { n with state := .linkLost }) st
  forEach (t.routedPositions st) (fun p u => u.setQuality p fun q => { q with linkDown := true }) t

theorem linkLoss_eq : s.linkLoss st = (s.cutOff st).stationEvent .linkLost st 0 0 := rfl

theorem cutOff_view (q : Pos) : (s.cutOff st).view q = if (s.routedPlace st q).isSome then
    ((s.view q).flushed (s.blankClass q) true).flag fun k => { k with linkDown := true } else s.view q := by
  have hrouting : (State.flushStation (s.setNode st fun n => { n with state := .linkLost }) st).sm.routing = s.sm.routing := by simp
  refine (forEach_setQuality_view (routedPositions_nodup ..) _ _ q).trans ?_
  rw [flushStation_view]
  simp only [mem_routedPositions, routedPlace_congr hrouting]
  split
  next h => exact congrArg (PositionView.flag · _) (if_pos h)
  next h => exact if_neg h

theorem cutOff_kept : (s.cutOff st).ss = (s.flushStation st).ss ∧ (s.cutOff st).tb = s.tb ∧
    (s.cutOff st).vp.events = s.vp.events := by
  refine ⟨?_, ?_, ?_⟩
  · refine (forEach_keeps State.ss _ _ _ (by simp)).trans ?_
    exact (flushStation_ss ..).trans (flushStation_ss s st).symm
  · refine (forEach_keeps State.tb _ _ _ (by simp)).trans ?_
    simp
  · exact (forEach_events (fun _ _ => setQuality_events ..) _ _).trans (flushStation_events ..)

theorem linkLoss_view (q : Pos) : (s.linkLoss st).view q = if (s.routedPlace st q).isSome then
    ((s.view q).flushed (s.blankClass q) true).flag fun k => { k with linkDown := true } else s.view q := by
  rw [linkLoss_eq, ← cutOff_view]
  exact view_congr (by simp) (by simp) (by simp) q

theorem linkLoss_taken : EventTaken s.vp (s.linkLoss st).vp (eventOf s .linkLost (BitVec.ofNat 8 (st.val + 1)) 0 0) := by
  obtain ⟨-, htb, hevents⟩ := cutOff_kept s st
  have htaken := stationEvent_taken (s.cutOff st) .linkLost st 0 0
  rw [eventOf_congr (congrArg TimeBase.time htb)] at htaken
  exact htaken.congr hevents.symm rfl

theorem linkLoss_queue : QueueFlushed s.ss (s.linkLoss st).ss fun q => (s.routedPlace st q).isSome := by
  have hss : (s.linkLoss st).ss = (s.flushStation st).ss := by
    rw [linkLoss_eq, ← (cutOff_kept s st).1]
    simp
  rw [hss]
  exact flushStation_queue s st

/-- A link loss touches SM, SS, CL, RU, OU and VP alone (R10). -/
theorem linkLoss_only : s.linkLoss st = { s with
    sm := (s.linkLoss st).sm, ss := (s.linkLoss st).ss, cl := (s.linkLoss st).cl, ru := (s.linkLoss st).ru
    ou := (s.linkLoss st).ou, vp := (s.linkLoss st).vp } := by
  have hframe := linkLoss_frame s st
  generalize s.linkLoss st = t at hframe ⊢
  obtain ⟨⟩ := t
  obtain ⟨rfl, rfl, rfl, rfl, rfl, rfl, rfl, rfl, rfl, rfl⟩ := hframe
  rfl

end

/-! ## A seat change -/

section
variable (s : State) (st : Station) (node : Byte) (places latency : Nat)

/-- The part when a seat change has flushed the positions, and written and looked up the station's record (R11). -/
def State.seated : State :=
  ((s.flushStation st).setNode st fun n => { n with
    nodeId := node, places := places, misses := 0, latency := latency, hopReported := false }).lookupCalibration st

theorem seated_node : (s.seated st node places latency).sm.nodes[st] = { s.sm.nodes[st] with
    nodeId := node, places := places, misses := 0, latency := latency, hopReported := false,
    calIndex := s.tables.findCalibration node } := by
  unfold State.seated
  rw [lookupCalibration_sm, setNode_sm]
  dsimp only
  rw [upd_at, upd_at]
  simp

theorem seated_view (q : Pos) : (s.seated st node places latency).view q = if (s.routedPlace st q).isSome then
    ((s.view q).flushed (s.blankClass q) true).flag fun k => { k with defaultCal := (s.tables.findCalibration node).isNone }
    else s.view q := by
  have hrouting : (s.flushStation st).sm.routing = s.sm.routing := by simp
  have htables : (s.flushStation st).tables = s.tables := by simp
  have hset (t : State) (f : Node → Node) : (t.setNode st f).view q = t.view q := rfl
  have hrouted (t : State) (f : Node → Node) : (t.setNode st f).routedPlace st = t.routedPlace st := rfl
  unfold State.seated
  rw [lookupCalibration_view, hset, hrouted, routedPlace_congr hrouting, setNode_sm, flushStation_view]
  dsimp only
  rw [upd_at]
  split
  next h => exact congrArg (fun t : Tables => PositionView.flag _ fun k => { k with defaultCal := (t.findCalibration node).isNone }) htables
  · rfl

theorem seated_kept : (s.seated st node places latency).sm.routing = s.sm.routing ∧
    (s.seated st node places latency).tables = s.tables ∧ (s.seated st node places latency).tb.time = s.tb.time ∧
    (s.seated st node places latency).ss = (s.flushStation st).ss ∧ (s.seated st node places latency).vp.events = s.vp.events := by
  unfold State.seated
  refine ⟨?_, by simp, by simp, by simp, (lookupCalibration_events ..).trans (flushStation_events ..)⟩
  rw [lookupCalibration_sm]
  simp

/-- The part when SEAT_CHANGED has been queued. -/
def State.reseated : State :=
  (s.seated st node places latency).stationEvent .seatChanged st s.sm.nodes[st].nodeId node

theorem seatChange_checks : s.seatChange st node places latency = (s.reseated st node places latency).checkStation st := by
  have hsm : (s.flushStation st).sm = s.sm := by simp
  rw [seatChange_eq, hsm]
  rfl

theorem reseated_kept : (s.reseated st node places latency).sm = (s.seated st node places latency).sm ∧
    (s.reseated st node places latency).tables = s.tables ∧ (s.reseated st node places latency).tb.time = s.tb.time ∧
    (s.reseated st node places latency).ss = (s.flushStation st).ss ∧
    ∀ q, (s.reseated st node places latency).view q = (s.seated st node places latency).view q := by
  obtain ⟨-, htables, htime, hss, -⟩ := seated_kept s st node places latency
  unfold State.reseated
  generalize s.seated st node places latency = u at htables htime hss ⊢
  exact ⟨rfl, htables, htime, hss, fun _ => rfl⟩

theorem reseated_taken : EventTaken s.vp (s.reseated st node places latency).vp
    (eventOf s .seatChanged (BitVec.ofNat 8 (st.val + 1)) s.sm.nodes[st].nodeId node) := by
  obtain ⟨-, -, htime, -, hevents⟩ := seated_kept s st node places latency
  unfold State.reseated
  generalize s.seated st node places latency = u at htime hevents ⊢
  have htaken := stationEvent_taken u .seatChanged st s.sm.nodes[st].nodeId node
  rw [eventOf_congr htime] at htaken
  exact htaken.congr hevents.symm rfl

theorem reseated_node : (s.reseated st node places latency).sm.nodes[st] = { s.sm.nodes[st] with
    nodeId := node, places := places, misses := 0, latency := latency, hopReported := false,
    calIndex := s.tables.findCalibration node } := by
  rw [(reseated_kept s st node places latency).1, seated_node]

theorem reseated_routedPlace : (s.reseated st node places latency).routedPlace st = s.routedPlace st := by
  have hrouting := (seated_kept s st node places latency).1
  rw [← (reseated_kept s st node places latency).1] at hrouting
  exact routedPlace_congr hrouting st

/-- A seat change flushes and checks the station's positions, and no other position changes (R11, R14). -/
theorem seatChange_view (q : Pos) : (s.seatChange st node places latency).view q = if (s.routedPlace st q).isSome then
    ((s.view q).flushed (s.blankClass q) true).flag
      (stationChecked (s.routedPlace st q) places (s.tables.findCalibration node).isNone) else s.view q := by
  obtain ⟨-, -, -, -, hview⟩ := reseated_kept s st node places latency
  rw [seatChange_checks, checkStation_view, reseated_node, reseated_routedPlace, hview, seated_view]
  cases s.routedPlace st q with
  | none => rfl
  | some k => rfl

/-- The events of a seat change (R11 to R13). -/
theorem seatChange_queued : EventsQueued s.vp (s.seatChange st node places latency).vp
    ([eventOf s .seatChanged (BitVec.ofNat 8 (st.val + 1)) s.sm.nodes[st].nodeId node] ++ calMissingEvents s st node ++
      placeMissingEvents s (s.routedPlace st) places) := by
  obtain ⟨hsm, htables, htime, -⟩ := reseated_kept s st node places latency
  have hrouting := (seated_kept s st node places latency).1
  rw [← hsm] at hrouting
  have htaken := reseated_taken s st node places latency
  have hnode := reseated_node s st node places latency
  rw [seatChange_checks]
  generalize s.reseated st node places latency = u at hrouting htables htime htaken hnode ⊢
  exact checkStation_queued_after htaken hnode rfl hrouting htables htime

theorem seatChange_queue : QueueFlushed s.ss (s.seatChange st node places latency).ss fun q => (s.routedPlace st q).isSome := by
  have hss : (s.seatChange st node places latency).ss = (s.flushStation st).ss := by
    rw [seatChange_checks, ← (reseated_kept s st node places latency).2.2.2.1]
    simp [State.checkStation]
  rw [hss]
  exact flushStation_queue s st

/-- A seat change touches SM, SS, CL, RU, OU and VP alone (R11). -/
theorem seatChange_only : s.seatChange st node places latency = { s with
    sm := (s.seatChange st node places latency).sm, ss := (s.seatChange st node places latency).ss
    cl := (s.seatChange st node places latency).cl, ru := (s.seatChange st node places latency).ru
    ou := (s.seatChange st node places latency).ou, vp := (s.seatChange st node places latency).vp } := by
  have hframe := seatChange_frame s st node places latency
  generalize s.seatChange st node places latency = t at hframe ⊢
  obtain ⟨⟩ := t
  obtain ⟨rfl, rfl, rfl, rfl, rfl, rfl, rfl, rfl, rfl, rfl⟩ := hframe
  rfl

end

/-! ## A miss -/

theorem miss_at_limit {s : State} {st : Station}
    (h : s.tables.globals.retryLimit ≤ min (s.sm.nodes[st].misses + 1) 15) :
    s.miss st = (s.setNode st fun n => { n with misses := min (n.misses + 1) 15 }).linkLoss st := by
  rw [State.miss, if_pos]
  simp only [State.setNode, upd_at]
  exact h

/-- The two detail bytes of a latency (R177). -/
theorem byteOf_mod (n : Nat) : byteOf (n % 256) = BitVec.ofNat 8 n := by
  apply BitVec.eq_of_toNat_eq
  simp [byteOf]


/-! ## Outcomes of an ACTIVE station -/

theorem takeOutcome_hopMismatch {s : State} {st : Station} (kind : PollKind) (latency : Nat)
    (hst : s.sm.nodes[st].state = .active) : s.takeOutcome st kind latency .hopMismatch = (s.noteHop st latency).miss st := by
  unfold State.takeOutcome
  rw [hst]

/-- HOP_MISMATCH writes the latency, and is reported unless it has been (R8). -/
theorem noteHop_does (s : State) (st : Station) (latency : Nat) :
    let u := s.noteHop st latency
    u = { s with
      sm := { s.sm with nodes := s.sm.nodes.set st { s.sm.nodes[st] with latency := latency, hopReported := true } }
      vp := { s.vp with eventSlot := u.vp.eventSlot, eventQueue := u.vp.eventQueue } } ∧
    (s.sm.nodes[st].hopReported = true → u.vp = s.vp) ∧
    (s.sm.nodes[st].hopReported = false →
      EventGoesOut s u .hopMismatch (BitVec.ofNat 8 (st.val + 1)) (BitVec.ofNat 8 latency) (BitVec.ofNat 8 (latency / 256))) := by
  let noted := s.setNode st fun n => { n with latency := latency, hopReported := true }
  have hnoted : noted = { s with sm := { s.sm with
      nodes := s.sm.nodes.set st { s.sm.nodes[st] with latency := latency, hopReported := true } } } := rfl
  cases hreported : s.sm.nodes[st].hopReported with
  | true =>
    have hhop : s.noteHop st latency = noted := if_pos hreported
    rw [hhop, hnoted]
    exact ⟨rfl, fun _ => rfl, fun h => absurd h (by simp)⟩
  | false =>
    have hhop : s.noteHop st latency = noted.stationEvent .hopMismatch st (byteOf (latency % 256)) (byteOf (latency / 256)) :=
      if_neg (by simp only [hreported, Bool.false_eq_true, not_false_eq_true])
    have htaken := stationEvent_taken noted .hopMismatch st (byteOf (latency % 256)) (byteOf (latency / 256))
    rw [hhop]
    refine ⟨?_, fun h => absurd h (by simp), fun _ => ?_⟩
    · exact queueEvent_does noted ..
    · rwa [byteOf_mod] at htaken ⊢

/-- Settles O23: the outcomes by kind, and the views of the positions after a link loss and a seat change. -/
theorem linkLossFlushesItsPositions : Obligations.LinkLossFlushesItsPositions := by
  refine ⟨?noReply, ?outcomes, ?miss, ?seatChange⟩
  case noReply =>
    intro s line l p hs hl hp hph hc hclock hst
    rw [exec_noReply hs hl hp (LineController.event_windowCloses hp hph hc hclock), deliver_putLine]
    exact congrArg Host.Outcome.next (takeOutcome_active hst (by simp) (by simp))
  case outcomes =>
    intro s st kind latency o hst hgood
    refine ⟨fun hhop => takeOutcome_active hst hgood hhop, ?_⟩
    rintro rfl
    exact ⟨s.noteHop st latency, takeOutcome_hopMismatch kind latency hst, noteHop_does s st latency⟩
  case miss =>
    intro s st
    refine ⟨fun hbelow => miss_below_limit hbelow, fun hlimit => ?_⟩
    let counted := s.setNode st fun n => { n with misses := min (n.misses + 1) 15 }
    have hsm : (counted.linkLoss st).sm = { s.sm with nodes := s.sm.nodes.set st { s.sm.nodes[st] with
        misses := min (s.sm.nodes[st].misses + 1) 15, state := .linkLost } } := by
      rw [linkLoss_sm, setNode_sm, upd_upd]
      rfl
    rw [miss_at_limit hlimit]
    refine ⟨linkLoss_only counted st, hsm, linkLoss_taken counted st, linkLoss_queue counted st, fun q => ?_⟩
    have hview := linkLoss_view counted st q
    split
    next hrouted => exact flushedFor_of_view (hview.trans (if_pos hrouted))
    next hrouted => exact untouched_iff.mpr (hview.trans (if_neg hrouted))
  case seatChange =>
    intro s st node places latency
    refine ⟨seatChange_only .., seatChange_sm .., seatChange_queued .., seatChange_queue .., fun q => ?_⟩
    have hview := seatChange_view s st node places latency q
    cases hplace : s.routedPlace st q with
    | none =>
      rw [hplace] at hview
      exact untouched_iff.mpr hview
    | some k =>
      rw [hplace] at hview
      exact flushedFor_of_view hview

end Sys2Proof.Machine
end

section
/-! SET_MODE_CONFIG and CONFIG_ENTRY: the entry to CONFIG, its answer and its wait (R3, R44, R120, R144, R164, R169, R174). -/

namespace Sys2Proof.Machine

/-! ## Flushes of every position -/

theorem flushAll_view (s : State) (q : Pos) : s.flushAll.view q = (s.view q).flushed (s.blankClass q) false :=
  (forEach_flush_view allPos_nodup false s q).trans (if_pos (mem_allPos q))

theorem flushAll_events (s : State) : s.flushAll.vp.events = s.vp.events := forEach_events (fun _ _ => flush_events ..) _ _

theorem flushAll_queue (s : State) : QueueFlushed s.ss s.flushAll.ss fun _ => true := by
  have hall : allPos.filter (fun _ => true) = allPos := List.filter_eq_self.mpr fun _ _ => rfl
  have hflushed := queueFlushed_filter (fun _ => true) s.ss
  rwa [hall, ← flushAll_ss] at hflushed

/-- What RU holds besides the reminder records. -/
def ReminderUnit.rest (ru : ReminderUnit) : Vector Buckle 16 × Nat × Time := (ru.buckles, ru.ignitionCount, ru.ignitionTime)

theorem ReminderUnit.rest_eq_iff {ru ru' : ReminderUnit} : ru'.rest = ru.rest ↔
    ru'.buckles = ru.buckles ∧ ru'.ignitionCount = ru.ignitionCount ∧ ru'.ignitionTime = ru.ignitionTime := by
  simp [ReminderUnit.rest]

/-- A flush without a reset of the buckle changes RU in the reminder records alone (R93, R118). -/
theorem flush_rest (s : State) (p : Pos) : (s.flush p false).ru.rest = s.ru.rest := by
  have hclass (t : State) (c : Cls) : (t.setClass p c).ru.rest = t.ru.rest := by
    rw [setClass_ru, reminderClass_ru]
    split <;> rfl
  exact hclass ..

theorem flushAll_rest (s : State) : s.flushAll.ru.rest = s.ru.rest :=
  forEach_keeps (fun t => t.ru.rest) _ _ s fun p t => flush_rest t p

/-! ## The positions in CONFIG -/

/-- A position whose reminder is closed. -/
def PositionView.closed (v : PositionView) : PositionView := { v with record := .toInactive }

/-- A position whose buckle is put back to UNKNOWN (R106). -/
def PositionView.unbuckled (v : PositionView) : PositionView := { v with buckle := { v.buckle with last := none, confirmed := none } }

theorem allInactive_view (s : State) (q : Pos) : s.allInactive.view q = (s.view q).closed := by
  obtain ⟨honly, hrecords⟩ := allInactive_does s
  unfold OnlyReminders at honly
  unfold State.view
  rw [hrecords, honly]
  rfl

theorem resetBuckles_view (s : State) (q : Pos) : s.resetBuckles.view q = (s.view q).unbuckled :=
  (forEach_view (fun _ => True) (g := fun _ v => v.unbuckled) (fun _ _ _ => trivial) (fun p t _ r => resetBuckle_view t p r) allPos_nodup
    trivial q).trans (if_pos (mem_allPos q))

theorem resetBuckle_kept (s : State) (p : Pos) :
    (s.resetBuckle p).ru.ignitionCount = s.ru.ignitionCount ∧ (s.resetBuckle p).vp.events = s.vp.events := by
  unfold State.resetBuckle
  exact ⟨by rw [(putBuckle_does ..).1], putBuckle_events ..⟩

theorem resetBuckles_kept (s : State) :
    s.resetBuckles.ru.ignitionCount = s.ru.ignitionCount ∧ s.resetBuckles.vp.events = s.vp.events := by
  unfold State.resetBuckles
  exact ⟨forEach_keeps (fun t : State => t.ru.ignitionCount) _ _ s fun p t => (resetBuckle_kept t p).1,
    forEach_events (fun p t => (resetBuckle_kept t p).2) _ _⟩

/-- A closed reminder stays closed whatever class is handed on (R117). -/
theorem blanked_inactive (c : Cls) : ReminderRecord.blanked .toInactive c = .toInactive := by
  unfold ReminderRecord.blanked
  split <;> rfl

/-! ## The entry -/

/-- Every reminder is closed, every buckle put back to UNKNOWN and every position flushed (R169). -/
def State.closeDown (s : State) : State := s.allInactive.resetBuckles.flushAll

theorem closeDown_only (s : State) : s.closeDown = { s with
    ss := s.closeDown.ss, cl := s.closeDown.cl, ru := s.closeDown.ru, ou := s.closeDown.ou, vp := s.closeDown.vp } := by
  have hframe : s.closeDown.power = s.power ∧ s.closeDown.mode = s.mode ∧ s.closeDown.change = s.change ∧ s.closeDown.tb = s.tb ∧
      s.closeDown.ps = s.ps ∧ s.closeDown.lc = s.lc ∧ s.closeDown.sm = s.sm ∧ s.closeDown.we = s.we ∧ s.closeDown.mu = s.mu ∧
      s.closeDown.tables = s.tables ∧ s.closeDown.pending = s.pending := by simp [State.closeDown]
  generalize s.closeDown = t at hframe ⊢
  obtain ⟨⟩ := t
  obtain ⟨rfl, rfl, rfl, rfl, rfl, rfl, rfl, rfl, rfl, rfl, rfl⟩ := hframe
  rfl

theorem closeDown_view (s : State) (q : Pos) :
    s.closeDown.view q = { (s.view q).flushed (s.blankClass q) true with record := .toInactive } := by
  have hblank : s.allInactive.resetBuckles.blankClass q = s.blankClass q := by
    unfold State.blankClass State.fitted State.entry
    simp
  unfold State.closeDown
  rw [flushAll_view, hblank, resetBuckles_view, allInactive_view]
  have hrecord : (if s.blankClass q = s.cl[q].committed then ReminderRecord.toInactive
      else ReminderRecord.blanked .toInactive (s.blankClass q)) = .toInactive := by rw [blanked_inactive, ite_self]
  exact congrArg (fun r => ({ (s.view q).flushed (s.blankClass q) true with record := r } : PositionView)) hrecord

theorem closeDown_kept (s : State) : s.closeDown.ru.ignitionCount = s.ru.ignitionCount ∧ s.closeDown.vp.events = s.vp.events ∧
    QueueFlushed s.ss s.closeDown.ss fun _ => true := by
  obtain ⟨honly, -⟩ := allInactive_does s
  obtain ⟨-, hcount, -⟩ := ReminderUnit.rest_eq_iff.mp (flushAll_rest s.allInactive.resetBuckles)
  unfold State.closeDown
  refine ⟨?_, ?_, ?_⟩
  · obtain ⟨-, hsame, -⟩ := honly.inputs
    rw [hcount, (resetBuckles_kept _).1, hsame]
  · exact (flushAll_events _).trans ((resetBuckles_kept _).2.trans honly.events)
  · have hqueue := flushAll_queue s.allInactive.resetBuckles
    have hss : s.allInactive.resetBuckles.ss = s.ss := by simp
    rwa [hss] at hqueue

/-- The part at the entry to CONFIG, its positions apart (R169). -/
def State.configured (s : State) : State :=
  { s.enterMode .config with ps := { s.ps with onDemand := [], sweep := 0 }, sm := { s.sm with routing := emptyRouting } }

theorem enterConfig_eq (s : State) : s.enterConfig = s.configured.closeDown := rfl

theorem modeChanged_taken (s : State) (m : Mode) :
    EventTaken s.vp (s.enterMode m).vp (eventOf s .modeChanged 0 (BitVec.ofNat 8 m.code) 0) := queueEvent_taken { s with mode := m } ..

/-- MU's request and the change in progress are apart from the entry to CONFIG. -/
theorem configEntered_enterConfig (s : State) (change : Change) (mu : ManagementUnit) :
    ConfigEntered s { s.enterConfig with change, mu } := by
  have honly := closeDown_only s.configured
  have hview := closeDown_view s.configured
  obtain ⟨hcount, hevents, hqueue⟩ := closeDown_kept s.configured
  rw [enterConfig_eq]
  generalize s.configured.closeDown = t at honly hview hcount hevents hqueue ⊢
  refine ⟨?_, fun st q => ?_, hcount, (modeChanged_taken s .config).congr rfl hevents, hqueue, fun p => ?_⟩
  · rw [honly]
    rfl
  · rw [honly]
    exact emptyRouting_none st q
  · have hchain := congrArg PositionView.chain (hview p)
    have hcls := congrArg PositionView.cls (hview p)
    have hbuckle := congrArg PositionView.buckle (hview p)
    have hrecord := congrArg PositionView.record (hview p)
    rw [view_cls] at hcls
    dsimp only
    rw [hcls]
    rw [show t.ru.records[p] = _ from hrecord]
    exact ⟨rfl, rfl, rfl, hbuckle, hchain, rfl, rfl, rfl, rfl⟩

/-! ## SET_MODE with a mode byte of CONFIG -/

/-- The row SET_MODE_CONFIG takes a frame whose mode byte is 0. -/
theorem setModeConfig_wf (base : BitVec 11) {rec : RequestRecord} (hkind : rec.ofKind 4) (hid : rec.id = 0) :
    ((requestFrame base rec).under .setModeConfig).wf = true := by
  change setsMode (requestFrame base rec).data 0 = true
  have hbyte : byteAt (requestFrame base rec).data 1 = 0 := hid
  simp [setsMode, isKind_requestFrame base hkind, hbyte]

/-- SET_MODE CONFIG on the service identifier, in each mode (R164, R169). -/
theorem serveSetMode_config {s : State} {rec : RequestRecord} (hid : rec.id = 0) (hlevel : rec.level = .service) :
    (s.mode = .config → s.serveSetMode rec = (s, okay 0)) ∧
    (s.mode ≠ .config → s.serveSetMode rec =
      if s.speedReading ≠ 0 then (s, refusal .moving)
      else if s.lc.poll = none ∧ s.we = none then (s.enterConfig, okay 0)
      else ({ s with change := .configWaiting false }, .changing)) := by
  have hnamed : modeOf rec.id = some .config := by rw [hid]; rfl
  unfold State.serveSetMode
  rw [hnamed]
  refine ⟨fun hmode => ?_, fun hmode => ?_⟩
  · simp [hmode, hlevel, Mode.code, wordOf]
  · simp [hlevel, Ne.symm hmode, State.changeToConfig, State.moving, nothingInFlight_iff]

/-- The entry made at acceptance, and answered (log entry 27). -/
theorem enterConfig_serving (s : State) (rec : RequestRecord) (w : Work) :
    ConfigEntered s (s.enterConfig.serving rec w) ∧ (s.enterConfig.serving rec w).change = s.change ∧
    (s.enterConfig.serving rec w).mu = { s.mu with service := some { req := rec, work := w } } := by
  have hchange : s.enterConfig.change = s.change := by simp
  have hmu : s.enterConfig.mu = s.mu := by simp
  have hentered := configEntered_enterConfig s s.enterConfig.change
    { s.enterConfig.mu with service := some { req := rec, work := w } }
  generalize s.enterConfig = t at hchange hmu hentered ⊢
  refine ⟨hentered, hchange, ?_⟩
  rw [← hmu]
  rfl

/-! ## CONFIG_ENTRY -/

theorem evaluationWaits_iff {s : State} : s.evaluationWaits = true ↔
    s.mayEvaluate = true ∧ ∃ q ∈ s.ss.evalQueue, (s.bankInForce q).w ≤ s.ss.chains[q].len := by
  simp [State.evaluationWaits, State.windowFull]

/-- The entry that a change waits for can be made when nothing is in flight and no evaluation starts first (R169, log entry 26). -/
theorem entryComes_iff {s : State} {due : Bool} (hchange : s.change = .configWaiting due) :
    s.entryComes = true ↔ (s.lc.poll = none ∧ s.we = none) ∧ ¬ s.evaluationWaits = true := by
  simp [State.entryComes, hchange, nothingInFlight_iff]

theorem exec_configEntry {s : State} (hs : s.power = .on) (h : s.entryComes = true) :
    exec .configEntry s = .next (State.finish { s.enterConfig with change := .none } (okay 0)) := by
  change execConfigEntry s = _
  exact occurs_due hs h

theorem exec_configEntry_idle {s : State} (h : ¬ s.entryComes = true) : exec .configEntry s = .next s := by
  change execConfigEntry s = _
  exact occurs_otherwise (.inr (Bool.not_eq_true _ ▸ h))

/-- The entry that has waited, and answers (log entry 47). -/
theorem enterConfig_finish {s : State} {rec : RequestRecord} {v : Work} (hservice : s.mu.service = some { req := rec, work := v })
    (w : Work) :
    let t := State.finish { s.enterConfig with change := .none } w
    ConfigEntered s t ∧ t.change = .none ∧ t.mu = { s.mu with service := some { req := rec, work := w } } := by
  have hmu : s.enterConfig.mu = s.mu := by simp
  have hentered := configEntered_enterConfig s .none { s.enterConfig.mu with service := some { req := rec, work := w } }
  generalize s.enterConfig = t at hmu hentered ⊢
  unfold State.finish
  dsimp only
  rw [hmu, hservice] at *
  exact ⟨hentered, rfl, rfl⟩

/-- Settles O48: the entry is one state, and what is in flight decides between it and the wait. -/
theorem configIsEnteredWhenNothingIsInFlight : Obligations.ConfigIsEnteredWhenNothingIsInFlight := by
  refine ⟨fun s rec hserves hkind hlevel hid => ?_, fun s rec due hs hchange hservice => ?_⟩
  · intro f answered
    have hexec := exec_setMode hserves hkind (c := f.under .setModeConfig) (by simp [f]) (setModeConfig_wf _ hkind hid)
    obtain ⟨hconfig, hother⟩ := serveSetMode_config (s := s) hid hlevel
    refine ⟨fun hmode => ?_, fun hmode hmoving => ?_, fun hmode hstands hbusy => ?_, fun hmode hstands hpoll hwe => ?_⟩
    · exact hexec.trans (by rw [hconfig hmode]; rfl)
    · exact hexec.trans (by rw [hother hmode, if_pos hmoving]; rfl)
    · exact hexec.trans (by rw [hother hmode, if_neg (not_not.mpr hstands), if_neg (by tauto)]; rfl)
    · rw [hother hmode, if_neg (not_not.mpr hstands), if_pos ⟨hpoll, hwe⟩] at hexec
      dsimp only at hexec
      obtain ⟨hentered, hchange, hmu⟩ := enterConfig_serving s rec (okay 0)
      exact ⟨s.enterConfig.serving rec (okay 0), hexec, hentered, hchange, hmu⟩
  · have hcomes := entryComes_iff hchange
    refine ⟨fun hpoll hwe hnone => ?_, fun hdue hmode hfull => ?_, fun hbusy => ?_, fun e he => ?_⟩
    · have hwaits : ¬ s.evaluationWaits = true := by
        rw [evaluationWaits_iff, mayEvaluate_iff]
        rintro ⟨⟨-, -, hnot⟩, q, hq, hfull⟩
        rcases hnone with hdue | hshort
        · exact hnot (hdue ▸ hchange)
        · exact absurd hfull (Nat.not_le.mpr (hshort q hq))
      have hexec := exec_configEntry hs (hcomes.mpr ⟨⟨hpoll, hwe⟩, hwaits⟩)
      obtain ⟨hentered, hnone, hmu⟩ := enterConfig_finish hservice (okay 0)
      exact ⟨_, hexec, hentered, hnone, hmu⟩
    · refine exec_configEntry_idle fun h => ?_
      obtain ⟨⟨-, hwe⟩, hnot⟩ := hcomes.mp h
      refine hnot (evaluationWaits_iff.mpr ⟨mayEvaluate_iff.mpr ⟨hwe, .inl hmode, ?_⟩, hfull⟩)
      simp [hchange, hdue]
    · refine exec_configEntry_idle fun h => ?_
      obtain ⟨⟨hpoll, hwe⟩, -⟩ := hcomes.mp h
      tauto
    · refine ⟨_, exec_evaluationCompletion hs he (by simp [hchange]), ?_, ?_⟩
      · simp [State.callEntry, hchange, State.lineIdle]
      · rw [callEntry_does]
        simp

end Sys2Proof.Machine
end

section
/-! The ten checks of an entry to RUN, and the entry that holds a node id (R13, R158, R170). -/

namespace Sys2Proof.Machine

namespace Tables

variable (t : Tables)

/-! ## The checks, one by one -/

/-- The position is fitted, and its station missing from the schedule in use (R170, check 3). -/
def Unlisted (p : Pos) : Prop :=
  ¬ (t.positions[p].station.isSome = true →
    ∃ i : Fin 64, i.val < t.globals.scheduleLength ∧ t.schedule[i] = t.positions[p].station)

/-- The position is airbag-relevant and not fitted (R170, check 4). -/
def Misflagged (p : Pos) : Prop := ¬ (t.positions[p].airbag = true → t.positions[p].station.isSome = true)

/-- A bank is in force for a fitted position (R55). -/
def Forces (name : BankName) : Prop := ∃ p : Pos, t.positions[p].station.isSome = true ∧ t.bankName p = name

variable {t}

theorem fittedPositions_eq_nil_iff : t.fittedPositions = [] ↔ ∀ p : Pos, ¬ t.positions[p].station.isSome = true := by
  simp [Tables.fittedPositions, List.filter_eq_nil_iff, mem_allPos]

theorem scheduled_iff {st : Option Station} :
    t.scheduled st = true ↔ ∃ i : Fin 64, i.val < t.globals.scheduleLength ∧ t.schedule[i] = st := by
  rw [Tables.scheduled, List.contains_iff_mem, List.mem_take_iff_getElem]
  constructor
  · rintro ⟨i, hi, hst⟩
    rw [Vector.length_toList] at hi
    exact ⟨⟨i, by omega⟩, by dsimp only; omega, by simpa using hst⟩
  · rintro ⟨i, hi, hst⟩
    exact ⟨i.val, by simp [hi], by simpa using hst⟩

/-- The first position that fails check 3 is the lowest that does. -/
theorem find_unlisted_iff {p : Pos} : (t.fittedPositions.find? fun p => !t.scheduled t.positions[p].station) = some p ↔
    t.Unlisted p ∧ ∀ q < p, ¬ t.Unlisted q := by
  rw [Tables.fittedPositions, List.find?_filter]
  refine find?_allPos_iff fun q => ?_
  rw [Unlisted, Classical.not_imp, ← scheduled_iff]
  simp

theorem find_unlisted_eq_none (h : ∀ p, ¬ t.Unlisted p) :
    (t.fittedPositions.find? fun p => !t.scheduled t.positions[p].station) = none :=
  Option.eq_none_iff_forall_ne_some.mpr fun p hp => h p (find_unlisted_iff.mp hp).1

/-- The first position that fails check 4 is the lowest that does. -/
theorem find_misflagged_iff {p : Pos} : (t.airbagPositions.find? fun p => t.positions[p].station.isNone) = some p ↔
    t.Misflagged p ∧ ∀ q < p, ¬ t.Misflagged q := by
  rw [Tables.airbagPositions, List.find?_filter]
  refine find?_allPos_iff fun q => ?_
  rw [Misflagged, Classical.not_imp]
  simp

theorem find_misflagged_eq_none (h : ∀ p, ¬ t.Misflagged p) :
    (t.airbagPositions.find? fun p => t.positions[p].station.isNone) = none :=
  Option.eq_none_iff_forall_ne_some.mpr fun p hp => h p (find_misflagged_iff.mp hp).1

/-- The checks of a bank that no fitted position uses are not made. -/
theorem bankFlaw_unforced {name : BankName} (h : ¬ t.Forces name) (id : Byte) : t.bankFlaw name id = none := by
  unfold Tables.bankFlaw
  refine if_neg fun hany => h ?_
  simpa [Forces, Tables.fittedPositions, mem_allPos] using hany

/-- Checks 5 to 7, or 8 to 10, of a bank in force. -/
theorem bankFlaw_forced {name : BankName} (h : t.Forces name) (id : Byte) : t.bankFlaw name id =
    if (t.bank name).tAdult ≤ (t.bank name).tObj then some { table := id, entry := 0, word := 5 }
    else if (t.bank name).w < (t.bank name).h then some { table := id, entry := 0, word := 1 }
    else if t.globals.chainCap < (t.bank name).w then some { table := id, entry := 0, word := 0 }
    else none := by
  unfold Tables.bankFlaw
  refine if_pos ?_
  simpa [Forces, Tables.fittedPositions, mem_allPos] using h

/-- A bank passes its checks where none of its positions is fitted, or its entries are in order. -/
theorem bankFlaw_sound {name : BankName} (id : Byte) (h : t.Forces name →
    (t.bank name).tObj < (t.bank name).tAdult ∧ (t.bank name).h ≤ (t.bank name).w ∧ (t.bank name).w ≤ t.globals.chainCap) :
    t.bankFlaw name id = none := by
  by_cases hforced : t.Forces name
  · obtain ⟨hobj, hh, hw⟩ := h hforced
    rw [bankFlaw_forced hforced, if_neg (Nat.not_le.mpr hobj), if_neg (Nat.not_lt.mpr hh), if_neg (Nat.not_lt.mpr hw)]
  · exact bankFlaw_unforced hforced id

theorem bankFlaw_flawed {name : BankName} (h : t.Forces name) (id : Byte) :
    ((t.bank name).tAdult ≤ (t.bank name).tObj → t.bankFlaw name id = some { table := id, entry := 0, word := 5 }) ∧
    ((t.bank name).tObj < (t.bank name).tAdult → (t.bank name).w < (t.bank name).h →
      t.bankFlaw name id = some { table := id, entry := 0, word := 1 }) ∧
    ((t.bank name).tObj < (t.bank name).tAdult → (t.bank name).h ≤ (t.bank name).w → t.globals.chainCap < (t.bank name).w →
      t.bankFlaw name id = some { table := id, entry := 0, word := 0 }) := by
  rw [bankFlaw_forced h]
  refine ⟨fun hobj => if_pos hobj, fun hobj hh => ?_, fun hobj hh hw => ?_⟩
  · rw [if_neg (Nat.not_le.mpr hobj), if_pos hh]
  · rw [if_neg (Nat.not_le.mpr hobj), if_neg (Nat.not_lt.mpr hh), if_pos hw]

theorem forces_a_iff : t.Forces .a ↔
    ∃ p : Pos, t.positions[p].station.isSome = true ∧ (t.globals.bankBEnable = false ∨ t.positions[p].bank = .a) := by
  refine exists_congr fun p => and_congr_right fun _ => ?_
  unfold Tables.bankName
  cases t.globals.bankBEnable <;> simp

theorem forces_b_iff : t.Forces .b ↔
    ∃ p : Pos, t.positions[p].station.isSome = true ∧ t.globals.bankBEnable = true ∧ t.positions[p].bank = .b := by
  refine exists_congr fun p => and_congr_right fun _ => ?_
  unfold Tables.bankName
  cases t.globals.bankBEnable <;> simp

/-! ## Their order -/

/-- With a fitted position and a schedule length in range, checks 3 to 10 decide (R170). -/
theorem flaw_eq (hfitted : ∃ p : Pos, t.positions[p].station.isSome = true)
    (hlength : 1 ≤ t.globals.scheduleLength ∧ t.globals.scheduleLength ≤ 64) : t.flaw =
    ((t.fittedPositions.find? fun p => !t.scheduled t.positions[p].station).map positionFlaw <|>
      (t.airbagPositions.find? fun p => t.positions[p].station.isNone).map positionFlaw <|>
      t.bankFlaw .a 3 <|> t.bankFlaw .b 4) := by
  have hsome : ¬ t.fittedPositions = [] := fun h => hfitted.elim (fittedPositions_eq_nil_iff.mp h)
  unfold Tables.flaw
  rw [if_neg hsome, if_neg (by omega)]
  cases t.fittedPositions.find? fun p => !t.scheduled t.positions[p].station with
  | some p => rfl
  | none =>
    cases t.airbagPositions.find? fun p => t.positions[p].station.isNone with
    | some p => rfl
    | none =>
      cases t.bankFlaw .a 3 with
      | some f => rfl
      | none => rfl

/-- The first of the ten checks that fails is the flaw that is named (R170). -/
theorem firstFlaw (t : Tables) : FirstFlaw t := by
  have hforceA := forces_a_iff (t := t)
  have hforceB := forces_b_iff (t := t)
  refine ⟨fun hnone => if_pos (fittedPositions_eq_nil_iff.mpr hnone), fun hfitted hlength => ?_, fun hfitted hlength =>
    ⟨fun p hp hbefore => ?_, fun hlisted => ⟨fun p hp hbefore => ?_, fun hflagged => ?_⟩⟩⟩
  · have hsome : ¬ t.fittedPositions = [] := fun h => hfitted.elim (fittedPositions_eq_nil_iff.mp h)
    unfold Tables.flaw
    rw [if_neg hsome, if_pos (by omega)]
  · have hfirst := find_unlisted_iff.mpr ⟨hp, fun q hq => not_not.mpr (hbefore q hq)⟩
    rw [flaw_eq hfitted hlength, hfirst]
    rfl
  · have hlisted' := find_unlisted_eq_none fun q => not_not.mpr (hlisted q)
    have hfirst := find_misflagged_iff.mpr ⟨hp, fun q hq => not_not.mpr (hbefore q hq)⟩
    rw [flaw_eq hfitted hlength, hlisted', hfirst]
    rfl
  · have hbanks : t.flaw = (t.bankFlaw .a 3 <|> t.bankFlaw .b 4) := by
      rw [flaw_eq hfitted hlength, find_unlisted_eq_none fun q => not_not.mpr (hlisted q),
        find_misflagged_eq_none fun q => not_not.mpr (hflagged q)]
      rfl
    have hfirst {f : Flaw} (h : t.bankFlaw .a 3 = some f) : t.flaw = some f := by rw [hbanks, h]; rfl
    have hsecond (h : t.bankFlaw .a 3 = none) : t.flaw = t.bankFlaw .b 4 := by rw [hbanks, h]; rfl
    refine ⟨fun hforced => ?_, fun hsound hforced => ?_, fun hsound hsoundB => ?_⟩
    · obtain ⟨hobj, hh, hw⟩ := bankFlaw_flawed (hforceA.mpr hforced) 3
      exact ⟨fun h => hfirst (hobj h), fun h h' => hfirst (hh h h'), fun h h' h'' => hfirst (hw h h' h'')⟩
    · rw [hsecond (bankFlaw_sound 3 fun h => hsound (hforceA.mp h))]
      exact bankFlaw_flawed (hforceB.mpr hforced) 4
    · rw [hsecond (bankFlaw_sound 3 fun h => hsound (hforceA.mp h))]
      exact bankFlaw_sound 4 fun h => hsoundB (hforceB.mp h)

/-! ## The entry that holds a node id -/

/-- Where no two entries hold the same node id, the one found is the one that holds it (R13, R158). -/
theorem findCalibration_iff {n : Byte} {e : Fin 16} (hdistinct : NodesDistinct t) (hn : n ≠ 0) :
    t.findCalibration n = some e ↔ t.calibration[e].nodeId = n := by
  have hfind : t.findCalibration n = some e ↔ t.calibration[e].nodeId = n ∧ ∀ q < e, ¬ t.calibration[q].nodeId = n :=
    find?_allPos_iff fun q => beq_iff_eq
  rw [hfind]
  refine ⟨And.left, fun he => ⟨he, fun q hq hsame => ?_⟩⟩
  exact hdistinct q e (ne_of_lt hq) (hsame ▸ hn) (hsame.trans he.symm)

end Tables

end Sys2Proof.Machine
end

section
/-! The Station Manager's part of an entry to RUN (R3, R12, R13, R15, R144). -/

namespace Sys2Proof.Machine

/-! ## Runs of which one step counts -/

section
variable {α β : Type} {look : State → β} {I : State → Prop} {f : α → State → State}

theorem forEach_unmoved (hI : ∀ x t, I t → I (f x t)) {xs : List α} (h : ∀ x ∈ xs, ∀ t, I t → look (f x t) = look t) {s : State}
    (hs : I s) : look (forEach xs f s) = look s := by
  induction xs generalizing s with
  | nil => rfl
  | cons x xs ih =>
    exact (ih (fun y hy => h y (List.mem_cons_of_mem x hy)) (hI x s hs)).trans (h x List.mem_cons_self s hs)

/-- Where all steps but one leave alone what `look` reads, a run does what that step does. -/
theorem forEach_once (hI : ∀ x t, I t → I (f x t)) {x : α} {g : β → β} (hother : ∀ y, y ≠ x → ∀ t, I t → look (f y t) = look t)
    (hone : ∀ t, I t → look (f x t) = g (look t)) {xs : List α} (hxs : xs.Nodup) (hx : x ∈ xs) {s : State} (hs : I s) :
    look (forEach xs f s) = g (look s) := by
  induction xs generalizing s with
  | nil => cases hx
  | cons y ys ih =>
    obtain ⟨hy, hys⟩ := List.nodup_cons.mp hxs
    rcases List.mem_cons.mp hx with rfl | hx
    · refine (forEach_unmoved hI (fun z hz => hother z fun e => hy (e ▸ hz)) (hI x s hs)).trans (hone s hs)
    · exact (ih hys hx (hI y s hs)).trans (congrArg g (hother y (fun e => hy (e ▸ hx)) s hs))

end

theorem mem_allStations (st : Station) : st ∈ allStations := by revert st; decide

theorem allStations_nodup : allStations.Nodup := by decide

/-! ## The routing of an entry to RUN -/

/-- The routing maps each fitted position under its station and place (R3). -/
theorem buildRouting_iff {t : Tables} (hdistinct : PlacesDistinct t) {st : Station} {k : Place} {p : Pos} :
    t.buildRouting[st][k] = some p ↔ t.positions[p].station = some st ∧ t.positions[p].place = k := by
  have hfind : t.buildRouting[st][k] = some p ↔
      (t.positions[p].station = some st ∧ t.positions[p].place = k) ∧
        ∀ q < p, ¬ (t.positions[q].station = some st ∧ t.positions[q].place = k) := by
    rw [show t.buildRouting[st][k] = allPos.find? fun p => t.positions[p].station == some st && t.positions[p].place == k by
      simp [Tables.buildRouting]]
    exact find?_allPos_iff (P := fun q => t.positions[q].station = some st ∧ t.positions[q].place = k) fun q => by simp
  rw [hfind]
  refine ⟨And.left, fun ⟨hst, hplace⟩ => ⟨⟨hst, hplace⟩, fun q hq ⟨hst', hplace'⟩ => ?_⟩⟩
  exact hdistinct q p (ne_of_lt hq) (by rw [hst']; rfl) (hst'.trans hst.symm) (hplace'.trans hplace.symm)

/-- The place that the Position Table gives a position at a station. -/
def State.tablePlace (s : State) (st : Station) (q : Pos) : Option Place :=
  if (s.entry q).station = some st then some (s.entry q).place else none

theorem routedPlace_built {s : State} (hdistinct : PlacesDistinct s.tables) (hrouting : s.sm.routing = s.tables.buildRouting)
    (st : Station) : s.routedPlace st = s.tablePlace st := by
  funext p
  have hmapped (k : Place) : (s.sm.routing[st][k] == some p) = true ↔ (s.entry p).station = some st ∧ (s.entry p).place = k := by
    rw [beq_iff_eq, hrouting]
    exact buildRouting_iff hdistinct
  unfold State.tablePlace
  split
  next hst =>
    have hfound : ∀ j : Place, ([0, 1, 2, 3] : List Place).find? (fun k => j == k) = some j := by decide
    have htest : (fun k => s.sm.routing[st][k] == some p) = fun k => (s.entry p).place == k := by
      funext k
      rw [Bool.eq_iff_iff, hmapped, beq_iff_eq]
      exact and_iff_right hst
    exact (congrArg (fun test => ([0, 1, 2, 3] : List Place).find? test) htest).trans (hfound _)
  next hst =>
    refine List.find?_eq_none.mpr fun k _ => ?_
    rw [hmapped]
    exact fun h => hst h.1

/-! ## The lookup of one station -/

/-- What an entry to RUN reads of the stations and the tables, and leaves as it is until its end. -/
def SameRun (s t : State) : Prop :=
  t.sm.routing = s.sm.routing ∧ t.tables = s.tables ∧ t.tb.time = s.tb.time ∧
  ∀ st : Station, t.sm.nodes[st].state = s.sm.nodes[st].state ∧ t.sm.nodes[st].nodeId = s.sm.nodes[st].nodeId ∧
    t.sm.nodes[st].places = s.sm.nodes[st].places

theorem SameRun.refl (s : State) : SameRun s s := ⟨rfl, rfl, rfl, fun _ => ⟨rfl, rfl, rfl⟩⟩

theorem SameRun.trans {s t u : State} (h : SameRun s t) (h' : SameRun t u) : SameRun s u := by
  obtain ⟨hrouting, htables, htime, hnodes⟩ := h
  obtain ⟨hrouting', htables', htime', hnodes'⟩ := h'
  refine ⟨hrouting'.trans hrouting, htables'.trans htables, htime'.trans htime, fun st => ?_⟩
  obtain ⟨hstate, hid, hplaces⟩ := hnodes st
  obtain ⟨hstate', hid', hplaces'⟩ := hnodes' st
  exact ⟨hstate'.trans hstate, hid'.trans hid, hplaces'.trans hplaces⟩

/-- A station's record after the lookup of an entry to RUN (R15). -/
def Node.runNode (n : Node) (t : Tables) : Node :=
  if n.state = .active then { n with misses := 0, calIndex := t.findCalibration n.nodeId } else n

/-- CAL_MISSING of a part that stands at `u` once the station's record has been looked up. -/
theorem reportCalMissing_queued_after {s u : State} {st : Station} {n : Node} (hnode : u.sm.nodes[st] = n)
    (hlooked : n.calIndex = s.tables.findCalibration n.nodeId) (htables : u.tables = s.tables) (htime : u.tb.time = s.tb.time)
    (hevents : u.vp.events = s.vp.events) : EventsQueued s.vp (u.reportCalMissing st).vp (calMissingEvents s st n.nodeId) := by
  subst hnode
  have hqueued := reportCalMissing_queued (s := u) (st := st) (by rw [hlooked, htables])
  unfold calMissingEvents at hqueued ⊢
  rw [htables, eventOf_congr htime] at hqueued
  exact hqueued.congr hevents.symm rfl

section
variable (s : State) (st : Station)

theorem runLookup_sm : (s.runLookup st).sm = { s.sm with nodes := upd s.sm.nodes st fun n => n.runNode s.tables } := by
  have hupd (f : Node → Node) (h : f s.sm.nodes[st] = Node.runNode s.sm.nodes[st] s.tables) :
      upd s.sm.nodes st f = upd s.sm.nodes st fun n => n.runNode s.tables := by
    unfold upd
    rw [h]
  unfold State.runLookup
  split
  next hactive =>
    simp only [reportCalMissing_frame, lookupCalibration_sm, setNode_sm, upd_at, upd_upd]
    rw [hupd]
    exact (if_pos hactive).symm
  next hother =>
    rw [← hupd id (if_neg hother).symm]
    simp [upd]

theorem runLookup_node (r : Station) :
    (s.runLookup st).sm.nodes[r] = if r = st then s.sm.nodes[st].runNode s.tables else s.sm.nodes[r] := by
  rw [runLookup_sm]
  dsimp only
  rw [upd_getElem_fin]
  split
  next h => rw [h]
  · rfl

theorem runLookup_same : SameRun s (s.runLookup st) := by
  refine ⟨by rw [runLookup_sm], by simp, by simp, fun r => ?_⟩
  rw [runLookup_node]
  split
  next h =>
    subst h
    unfold Node.runNode
    split <;> exact ⟨rfl, rfl, rfl⟩
  · exact ⟨rfl, rfl, rfl⟩

theorem runLookup_view (q : Pos) : (s.runLookup st).view q =
    if s.sm.nodes[st].state = .active ∧ (s.routedPlace st q).isSome then
      (s.view q).flag fun k => { k with defaultCal := (s.tables.findCalibration s.sm.nodes[st].nodeId).isNone } else s.view q := by
  unfold State.runLookup
  split
  next hactive =>
    rw [reportCalMissing_view, lookupCalibration_view, setNode_sm]
    dsimp only
    rw [upd_at]
    simp only [hactive, true_and]
    rfl
  next hother => rw [if_neg fun h => hother h.1]

theorem runLookup_queued : EventsQueued s.vp (s.runLookup st).vp
    (if s.sm.nodes[st].state = .active then calMissingEvents s st s.sm.nodes[st].nodeId else []) := by
  unfold State.runLookup
  split
  next hactive =>
    have hnode : (State.lookupCalibration (s.setNode st fun n => { n with misses := 0 }) st).sm.nodes[st] =
        { s.sm.nodes[st] with misses := 0, calIndex := s.tables.findCalibration s.sm.nodes[st].nodeId } := by
      rw [lookupCalibration_sm, setNode_sm]
      dsimp only
      rw [upd_at, upd_at]
      rfl
    have hqueued := reportCalMissing_queued_after (s := s) hnode rfl (by simp) (by simp) (lookupCalibration_events ..)
    exact hqueued
  · exact eventsQueued_none rfl

end

/-! ## Every station -/

theorem tablePlace_some {s : State} {st : Station} {q : Pos} (h : (s.entry q).station = some st) :
    s.tablePlace st q = some (s.entry q).place := if_pos h

theorem tablePlace_none {s : State} {st : Station} {q : Pos} (h : (s.entry q).station ≠ some st) : s.tablePlace st q = none := if_neg h

/-- The ACTIVE stations, ascending. -/
def State.activeStations (s : State) : List Station := (List.finRange 8).filter fun st => s.sm.nodes[st].state == .active

/-- A run over the stations that queues events for the ACTIVE ones alone. -/
theorem flatMap_activeStations (s : State) (rs : Station → List EventRecord) :
    (allStations.flatMap fun st => if s.sm.nodes[st].state = .active then rs st else []) = s.activeStations.flatMap rs := by
  have hfilter := flatMap_filter_of_nil (keep := fun st : Station => s.sm.nodes[st].state == .active)
    (f := fun st => if s.sm.nodes[st].state = .active then rs st else []) (fun st hst => if_neg (by simpa using hst)) allStations
  rw [← hfilter]
  refine List.flatMap_congr fun st hst => if_pos ?_
  simpa using (List.mem_filter.mp hst).2

/-- Each station's record has been looked up (R15). -/
def State.lookedUp (s : State) : State := forEach allStations (fun st u => u.runLookup st) s

/-- Each ACTIVE station's places have been checked (R15). -/
def State.placed (s : State) : State :=
  forEach allStations (fun st u => if u.sm.nodes[st].state = .active then u.placeCheck st else u) s

section
variable {s : State} (hrouted : ∀ st, s.routedPlace st = s.tablePlace st)

theorem SameRun.runLookup {t : State} (h : SameRun s t) (st : Station) : SameRun s (t.runLookup st) := h.trans (runLookup_same t st)

theorem lookedUp_same (s : State) : SameRun s s.lookedUp :=
  forEach_induction (SameRun s) _ _ s (.refl s) fun st _ ht => ht.runLookup st

theorem lookedUp_node (s : State) (st : Station) : s.lookedUp.sm.nodes[st] = s.sm.nodes[st].runNode s.tables := by
  have hrun := forEach_at (fun t (r : Station) => t.sm.nodes[r]) (SameRun s) (f := fun st u => u.runLookup st)
    (g := fun _ n => n.runNode s.tables) (fun st t ht => ht.runLookup st)
    (fun st t ht r => by rw [runLookup_node, ht.2.1]) allStations_nodup (.refl s) st
  rw [if_pos (mem_allStations st)] at hrun
  unfold State.lookedUp
  exact hrun

theorem lookedUp_queued (s : State) : EventsQueued s.vp s.lookedUp.vp
    (s.activeStations.flatMap fun st => calMissingEvents s st s.sm.nodes[st].nodeId) := by
  rw [← flatMap_activeStations]
  refine eventsQueued_forEach (SameRun s) (fun st t ht => ht.runLookup st) (fun st t ht => ?_) _ (.refl s)
  obtain ⟨-, htables, htime, hnodes⟩ := ht
  obtain ⟨hstate, hid, -⟩ := hnodes st
  have hqueued := runLookup_queued t st
  unfold calMissingEvents at hqueued ⊢
  rwa [hstate, hid, htables, eventOf_congr htime] at hqueued

/-- The flags of a position after the lookups of an entry to RUN: those of a fitted one follow its station (R13, R15). -/
def State.lookupView (s : State) (q : Pos) (v : PositionView) : PositionView :=
  match (s.entry q).station with
  | some st =>
    if s.sm.nodes[st].state = .active then
      v.flag fun k => { k with defaultCal := (s.tables.findCalibration s.sm.nodes[st].nodeId).isNone }
    else v
  | none => v

include hrouted in
theorem SameRun.routedPlace {t : State} (h : SameRun s t) (st : Station) : t.routedPlace st = s.tablePlace st :=
  (routedPlace_congr h.1 st).trans (hrouted st)

include hrouted in
/-- The lookup of a station leaves the positions of the others alone. -/
theorem runLookup_elsewhere {t : State} (h : SameRun s t) {st : Station} {q : Pos} (hq : (s.entry q).station ≠ some st) :
    (t.runLookup st).view q = t.view q := by
  rw [runLookup_view, h.routedPlace hrouted, tablePlace_none hq, if_neg (by simp)]

include hrouted in
theorem lookedUp_view (q : Pos) : s.lookedUp.view q = s.lookupView q (s.view q) := by
  unfold State.lookupView
  split
  next st hst =>
    refine forEach_once (look := fun t => t.view q) (I := SameRun s) (x := st)
      (g := fun v => if s.sm.nodes[st].state = .active then
        v.flag fun k => { k with defaultCal := (s.tables.findCalibration s.sm.nodes[st].nodeId).isNone } else v)
      (fun st t ht => ht.runLookup st) (fun r hr t ht => ?_) (fun t ht => ?_) allStations_nodup (mem_allStations st) (.refl s)
    · exact runLookup_elsewhere hrouted ht fun e => hr (Option.some.inj (e.symm.trans hst))
    · obtain ⟨hstate, hid, -⟩ := ht.2.2.2 st
      rw [runLookup_view, ht.routedPlace hrouted, tablePlace_some hst, hstate, hid, ht.2.1]
      simp
  next hnone =>
    exact forEach_unmoved (look := fun t => t.view q) (I := SameRun s) (fun st t ht => ht.runLookup st)
      (fun st _ t ht => runLookup_elsewhere hrouted ht (by simp [hnone])) (.refl s)

/-! ## The place checks of an entry to RUN -/

/-- An ACTIVE station's places are checked (R15). -/
def State.placeIfActive (s : State) (st : Station) : State := if s.sm.nodes[st].state = .active then s.placeCheck st else s

theorem placed_eq (s : State) : s.placed = forEach allStations (fun st u => u.placeIfActive st) s := rfl

theorem placeIfActive_kept (s : State) (st : Station) :
    (s.placeIfActive st).sm = s.sm ∧ (s.placeIfActive st).tables = s.tables ∧ (s.placeIfActive st).tb = s.tb := by
  unfold State.placeIfActive
  split <;> simp

theorem SameRun.placeIfActive {t : State} (h : SameRun s t) (st : Station) : SameRun s (t.placeIfActive st) := by
  obtain ⟨hsm, htables, htb⟩ := placeIfActive_kept t st
  exact h.trans ⟨by rw [hsm], htables, by rw [htb], fun r => by rw [hsm]; exact ⟨rfl, rfl, rfl⟩⟩

theorem placed_sm (s : State) : s.placed.sm = s.sm := forEach_keeps State.sm _ _ s fun st t => (placeIfActive_kept t st).1

theorem SameRun.placed {t : State} (h : SameRun s t) : SameRun s t.placed :=
  forEach_induction (SameRun s) _ _ t h fun st _ ht => ht.placeIfActive st

include hrouted in
theorem placed_queued {t : State} (h : SameRun s t) : EventsQueued t.vp t.placed.vp
    (s.activeStations.flatMap fun st => placeMissingEvents s (s.tablePlace st) s.sm.nodes[st].places) := by
  rw [← flatMap_activeStations, placed_eq]
  refine eventsQueued_forEach (SameRun s) (fun st t ht => ht.placeIfActive st) (fun st t ht => ?_) _ h
  obtain ⟨hstate, -, hplaces⟩ := ht.2.2.2 st
  have hqueued := placeCheck_queued t st
  unfold placeMissingEvents at hqueued ⊢
  rw [ht.routedPlace hrouted, hplaces, eventOf_congr ht.2.2.1] at hqueued
  unfold State.placeIfActive
  rw [hstate]
  split
  · exact hqueued
  · exact eventsQueued_none rfl

include hrouted in
theorem placeIfActive_view {t : State} (h : SameRun s t) (st : Station) (q : Pos) :
    (t.placeIfActive st).view q = if s.sm.nodes[st].state = .active then
      (t.view q).flag (placeChecked (s.tablePlace st q) s.sm.nodes[st].places) else t.view q := by
  obtain ⟨hstate, -, hplaces⟩ := h.2.2.2 st
  unfold State.placeIfActive
  rw [hstate]
  split
  · rw [placeCheck_view, h.routedPlace hrouted, hplaces]
  · rfl

/-- The flags of a position after the place checks of an entry to RUN (R12, R15). -/
def State.placedView (s : State) (q : Pos) (v : PositionView) : PositionView :=
  match (s.entry q).station with
  | some st =>
    if s.sm.nodes[st].state = .active then
      v.flag fun k => { k with linkDown := decide (s.sm.nodes[st].places ≤ (s.entry q).place.val) }
    else v
  | none => v

include hrouted in
theorem placeIfActive_elsewhere {t : State} (h : SameRun s t) {st : Station} {q : Pos} (hq : (s.entry q).station ≠ some st) :
    (t.placeIfActive st).view q = t.view q := by
  rw [placeIfActive_view hrouted h, tablePlace_none hq]
  split <;> rfl

include hrouted in
theorem placed_view {t : State} (h : SameRun s t) (q : Pos) : t.placed.view q = s.placedView q (t.view q) := by
  unfold State.placedView
  rw [placed_eq]
  split
  next st hst =>
    refine forEach_once (look := fun t => t.view q) (I := SameRun s) (x := st)
      (g := fun v => if s.sm.nodes[st].state = .active then
        v.flag fun k => { k with linkDown := decide (s.sm.nodes[st].places ≤ (s.entry q).place.val) } else v)
      (fun st t ht => ht.placeIfActive st) (fun r hr t ht => ?_) (fun t ht => ?_) allStations_nodup (mem_allStations st) h
    · exact placeIfActive_elsewhere hrouted ht fun e => hr (Option.some.inj (e.symm.trans hst))
    · rw [placeIfActive_view hrouted ht, tablePlace_some hst]
      rfl
  next hnone =>
    exact forEach_unmoved (look := fun t => t.view q) (I := SameRun s) (fun st t ht => ht.placeIfActive st)
      (fun st _ t ht => placeIfActive_elsewhere hrouted ht (by simp [hnone])) h

end

/-! ## LINK_DOWN of the other stations' positions -/

/-- The flags of a fitted position whose station is not ACTIVE (R15). -/
def State.linkDownView (s : State) (q : Pos) (v : PositionView) : PositionView :=
  match (s.entry q).station with
  | some st => if s.sm.nodes[st].state = .active then v else v.flag fun k => { k with linkDown := true }
  | none => v

theorem runLinkDown_view (s : State) (p q : Pos) :
    (s.runLinkDown p).view q = if q = p then s.linkDownView p (s.view p) else s.view q := by
  have hself : s.view q = if q = p then s.view p else s.view q := by
    split
    next h => rw [h]
    · rfl
  unfold State.runLinkDown State.linkDownView
  cases (s.entry p).station with
  | none => exact hself
  | some st =>
    dsimp only
    by_cases hactive : s.sm.nodes[st].state = .active
    · rw [if_pos hactive, if_pos hactive]
      exact hself
    · rw [if_neg hactive, if_neg hactive]
      exact setQuality_view ..

theorem runLinkDown_events (s : State) (p : Pos) : (s.runLinkDown p).vp.events = s.vp.events := by
  unfold State.runLinkDown
  (repeat' split) <;> simp

/-- LINK_DOWN of every fitted position whose station is not ACTIVE (R15). -/
def State.linksDown (s : State) : State := forEach allPos (fun p u => u.runLinkDown p) s

theorem linksDown_sm (s : State) : s.linksDown.sm = s.sm := forEach_keeps State.sm _ _ s (by simp)

theorem linksDown_events (s : State) : s.linksDown.vp.events = s.vp.events := forEach_events (fun p t => runLinkDown_events t p) _ s

/-! ## The stations at an entry to RUN -/

/-- A position's view after SM's part of an entry to RUN (R15). -/
def State.runView (s : State) (q : Pos) (v : PositionView) : PositionView :=
  s.linkDownView q (s.placedView q (s.lookupView q v))

theorem linkDownView_congr {s t : State} (h : SameRun s t) : t.linkDownView = s.linkDownView := by
  obtain ⟨-, htables, -, hnodes⟩ := h
  have hentry (q : Pos) : t.entry q = s.entry q := by
    unfold State.entry
    rw [htables]
  have hstate (st : Station) : t.sm.nodes[st].state = s.sm.nodes[st].state := (hnodes st).1
  funext q v
  unfold State.linkDownView
  simp only [hentry, hstate]

theorem linksDown_view {s t : State} (h : SameRun s t) (q : Pos) : t.linksDown.view q = s.linkDownView q (t.view q) := by
  have hsame (t : State) (p : Pos) : SameRun t (t.runLinkDown p) :=
    ⟨by simp, by simp, by simp, fun r => by simp⟩
  have hrun := forEach_view (SameRun s) (f := fun p u => u.runLinkDown p) (g := s.linkDownView)
    (fun p t ht => ht.trans (hsame t p)) (fun p t ht r => by rw [runLinkDown_view, linkDownView_congr ht]) allPos_nodup h q
  exact hrun.trans (if_pos (mem_allPos q))

/-- The part with the routing built (R3). -/
def State.routed (s : State) : State := { s with sm := { s.sm with routing := s.tables.buildRouting } }

theorem stationsEnterRun_eq (s : State) : s.stationsEnterRun = s.routed.lookedUp.placed.linksDown := rfl

theorem stationsEnterRun_sm (s : State) : s.stationsEnterRun.sm.routing = s.tables.buildRouting ∧
    ∀ st : Station, s.stationsEnterRun.sm.nodes[st] = s.sm.nodes[st].runNode s.tables := by
  rw [stationsEnterRun_eq, linksDown_sm, placed_sm]
  exact ⟨(lookedUp_same s.routed).1, lookedUp_node s.routed⟩

section
variable {s : State} (hdistinct : PlacesDistinct s.tables)
include hdistinct

theorem routed_routedPlace (st : Station) : s.routed.routedPlace st = s.routed.tablePlace st :=
  routedPlace_built (s := s.routed) hdistinct rfl st

/-- Every position's flags follow its station (R13, R15). -/
theorem stationsEnterRun_view (q : Pos) : s.stationsEnterRun.view q = s.runView q (s.view q) := by
  have hrouted := routed_routedPlace hdistinct
  have hlooked := lookedUp_same s.routed
  rw [stationsEnterRun_eq, linksDown_view hlooked.placed, placed_view hrouted hlooked, lookedUp_view hrouted]
  rfl

/-- The events of SM's part: CAL_MISSING of the stations, then PLACE_MISSING of their positions (R13, R15, log entry 35). -/
theorem stationsEnterRun_queued : EventsQueued s.vp s.stationsEnterRun.vp
    ((s.activeStations.flatMap fun st => calMissingEvents s st s.sm.nodes[st].nodeId) ++
      s.activeStations.flatMap fun st => placeMissingEvents s (s.tablePlace st) s.sm.nodes[st].places) := by
  have hlooked := lookedUp_queued s.routed
  have hplaced := placed_queued (routed_routedPlace hdistinct) (lookedUp_same s.routed)
  rw [stationsEnterRun_eq]
  generalize s.routed.lookedUp = t at hlooked hplaced ⊢
  exact hlooked.append (hplaced.congr rfl (linksDown_events t.placed))

end

end Sys2Proof.Machine
end

section
/-! SET_MODE_RUN: the validation, the entry to RUN, and its answer (R15, R62, R144, R164, R170, R171, R174). -/

namespace Sys2Proof.Machine

/-! ## The positions at an entry to RUN -/

/-- A position with both loss flags clear (R63). -/
def PositionView.unlossed (v : PositionView) : PositionView :=
  { v.flag (fun k => { k with sampleLoss := false }) with chain := { v.chain with loss := false } }

theorem clearLosses_ss (s : State) :
    s.clearLosses.ss = { s.ss with chains := Vector.ofFn fun p => { s.ss.chains[p] with loss := false } } :=
  forEach_keeps State.ss _ _ _ (by simp)

theorem clearLosses_view (s : State) (q : Pos) : s.clearLosses.view q = (s.view q).unlossed := by
  let cleared : State := { s with ss := { s.ss with chains := Vector.ofFn fun p => { s.ss.chains[p] with loss := false } } }
  have hcleared : cleared.view q = { s.view q with chain := { s.ss.chains[q] with loss := false } } :=
    congrArg (fun c => ({ s.view q with chain := c } : PositionView)) (by simp [cleared])
  have hrun := forEach_setQuality_view allPos_nodup (fun _ k => { k with sampleLoss := false }) cleared q
  rw [if_pos (mem_allPos q), hcleared] at hrun
  exact hrun

theorem clearLosses_events (s : State) : s.clearLosses.vp.events = s.vp.events :=
  (forEach_events (fun _ _ => setQuality_events ..) _ _).trans rfl

theorem flushAll_overrides (s : State) : s.flushAll.ou.overrides = s.ou.overrides := by
  have hflush (t : State) (p : Pos) : (t.flush p false).ou.overrides = t.ou.overrides := (setClass_does ..).2.1
  exact forEach_keeps (fun t => t.ou.overrides) _ _ s fun p t => hflush t p

/-- The part in RUN with every position flushed and the loss flags cleared, before SM's part (R171). -/
def State.runFlushed (s : State) : State := (s.enterMode .run).flushAll.clearLosses

section
variable (s : State)

theorem runFlushed_view (q : Pos) : s.runFlushed.view q = ((s.view q).flushed (s.blankClass q) false).unlossed := by
  unfold State.runFlushed
  rw [clearLosses_view, flushAll_view]
  rfl

theorem runFlushed_frame : s.runFlushed.power = s.power ∧ s.runFlushed.mode = .run ∧ s.runFlushed.change = s.change ∧
    s.runFlushed.tb = s.tb ∧ s.runFlushed.ps = s.ps ∧ s.runFlushed.lc = s.lc ∧ s.runFlushed.sm = s.sm ∧ s.runFlushed.we = s.we ∧
    s.runFlushed.mu = s.mu ∧ s.runFlushed.tables = s.tables ∧ s.runFlushed.pending = s.pending := by
  simp [State.runFlushed, State.enterMode]

theorem runFlushed_rest : s.runFlushed.ru.rest = s.ru.rest := by
  have hru : s.runFlushed.ru = (s.enterMode .run).flushAll.ru := by simp [State.runFlushed]
  rw [hru, flushAll_rest]
  rfl

theorem runFlushed_overrides : s.runFlushed.ou.overrides = s.ou.overrides := by
  have hou : s.runFlushed.ou = (s.enterMode .run).flushAll.ou := by simp [State.runFlushed]
  rw [hou, flushAll_overrides]
  rfl

theorem runFlushed_taken : EventTaken s.vp s.runFlushed.vp (eventOf s .modeChanged 0 1 0) :=
  (modeChanged_taken s .run).congr rfl ((clearLosses_events _).trans (flushAll_events _))

theorem runFlushed_queue : QueueFlushed s.ss s.runFlushed.ss fun _ => true := by
  obtain ⟨hqueue, hfree⟩ := flushAll_queue (s.enterMode .run)
  unfold State.runFlushed
  generalize (s.enterMode .run).flushAll = t at hqueue hfree ⊢
  rw [clearLosses_ss]
  exact ⟨hqueue, hfree⟩

end

/-! ## The entry to RUN -/

/-- The flags that SM's part of an entry to RUN leaves a position (R15). -/
theorem runView_eq (s : State) (q : Pos) (v : PositionView) : s.runView q v = v.flag fun k =>
    match (s.entry q).station with
    | some st =>
      if s.sm.nodes[st].state = .active then
        { k with
          defaultCal := (s.tables.findCalibration s.sm.nodes[st].nodeId).isNone
          linkDown := decide (s.sm.nodes[st].places ≤ (s.entry q).place.val) }
      else { k with linkDown := true }
    | none => k := by
  unfold State.runView State.linkDownView State.placedView State.lookupView
  cases (s.entry q).station with
  | none => rfl
  | some st =>
    dsimp only
    split <;> rfl

section
variable (s : State)

/-- TB's, PS's and OU's parts of an entry to RUN (R171). -/
def State.runBegun : State :=
  { s with tb := { s.tb with slotTimer := min s.tb.slotTimer s.tables.globals.slotPeriod }, ps := { s.ps with slotIndex := 0 },
           ou := s.ou.clearEnables }

theorem enterRun_eq : s.enterRun = s.runFlushed.stationsEnterRun.runBegun := by
  unfold State.enterRun State.runFlushed State.runBegun
  rfl

/-- An entry to RUN leaves alone LC, WE, MU, the tables, Cabin Time and the On-Demand Queue (R171). -/
theorem enterRun_only : s.enterRun = { s with
    mode := .run, tb := { s.tb with slotTimer := min s.tb.slotTimer s.tables.globals.slotPeriod }, ps := { s.ps with slotIndex := 0 }
    sm := s.enterRun.sm, ss := s.enterRun.ss, cl := s.enterRun.cl, ru := s.enterRun.ru, ou := s.enterRun.ou, vp := s.enterRun.vp } := by
  obtain ⟨hpower, hmode, hchange, htb, hps, hlc, hsm, hwe, hmu, htables, hpending⟩ := runFlushed_frame s
  obtain ⟨hpower', hmode', hchange', htb', hps', hlc', hss', hwe', hru', hou', hmu', htables', hpending'⟩ :=
    stationsEnterRun_frame s.runFlushed
  rw [enterRun_eq]
  generalize s.runFlushed.stationsEnterRun = t at *
  unfold State.runBegun
  dsimp only
  rw [hpower', hmode', hchange', htb', hps', hlc', hwe', hmu', htables', hpending', hpower, hmode, hchange, htb, hps, hlc, hwe, hmu,
    htables, hpending]

theorem enterRun_blocks : s.enterRun.ss = s.runFlushed.ss ∧ s.enterRun.ru = s.runFlushed.ru ∧
    s.enterRun.ou = s.runFlushed.ou.clearEnables ∧ s.enterRun.sm = s.runFlushed.stationsEnterRun.sm ∧
    s.enterRun.vp = s.runFlushed.stationsEnterRun.vp ∧ ∀ q, s.enterRun.view q = s.runFlushed.stationsEnterRun.view q := by
  obtain ⟨-, -, -, -, -, -, hss, -, hru, hou, -⟩ := stationsEnterRun_frame s.runFlushed
  rw [enterRun_eq]
  generalize s.runFlushed.stationsEnterRun = t at *
  exact ⟨hss, hru, congrArg OutputUnit.clearEnables hou, rfl, rfl, fun _ => rfl⟩

/-- A position after an entry to RUN (R15, R62, R63). -/
theorem enterRun_view (hdistinct : PlacesDistinct s.tables) (q : Pos) :
    s.enterRun.view q = s.runView q ((s.view q).flushed (s.blankClass q) false).unlossed := by
  obtain ⟨-, -, -, -, -, -, hsm, -, -, htables, -⟩ := runFlushed_frame s
  have hrun (v : PositionView) : s.runFlushed.runView q v = s.runView q v := by
    rw [runView_eq, runView_eq]
    unfold State.entry
    rw [hsm, htables]
  have hbuilt : PlacesDistinct s.runFlushed.tables := by rwa [htables]
  obtain ⟨-, -, -, -, -, hview⟩ := enterRun_blocks s
  rw [hview, stationsEnterRun_view hbuilt, hrun, runFlushed_view]

/-- The stations after an entry to RUN (R3, R15). -/
theorem enterRun_sm : s.enterRun.sm.routing = s.tables.buildRouting ∧
    ∀ st : Station, s.enterRun.sm.nodes[st] = s.sm.nodes[st].runNode s.tables := by
  obtain ⟨-, -, -, -, -, -, hsm, -, -, htables, -⟩ := runFlushed_frame s
  have hstations := stationsEnterRun_sm s.runFlushed
  obtain ⟨-, -, -, hsame, -⟩ := enterRun_blocks s
  rw [hsm, htables] at hstations
  rw [hsame]
  exact hstations

/-- The events of an entry to RUN: MODE_CHANGED comes first (log entry 29). -/
theorem enterRun_queued (hdistinct : PlacesDistinct s.tables) : EventsQueued s.vp s.enterRun.vp ([eventOf s .modeChanged 0 1 0] ++
    (s.activeStations.flatMap fun st => calMissingEvents s st s.sm.nodes[st].nodeId) ++
    s.activeStations.flatMap fun st => placeMissingEvents s (s.tablePlace st) s.sm.nodes[st].places) := by
  obtain ⟨-, -, -, htb, -, -, hsm, -, -, htables, -⟩ := runFlushed_frame s
  have hbuilt : PlacesDistinct s.runFlushed.tables := by rwa [htables]
  have htaken := runFlushed_taken s
  obtain ⟨-, -, -, -, hvp, -⟩ := enterRun_blocks s
  rw [hvp, List.append_assoc]
  generalize s.runFlushed = t at *
  have hlater := stationsEnterRun_queued hbuilt
  have hactive : t.activeStations = s.activeStations := by
    unfold State.activeStations
    rw [hsm]
  have hplace (st : Station) : t.tablePlace st = s.tablePlace st := by
    unfold State.tablePlace State.entry
    rw [htables]
  unfold calMissingEvents placeMissingEvents at hlater ⊢
  simp only [hactive, hplace, htables, hsm, eventOf_congr (congrArg TimeBase.time htb)] at hlater
  exact htaken.queued.append hlater

theorem enterRun_overrides (i : Fin 7) : s.enterRun.ou.overrides[i] = { s.ou.overrides[i] with enable := false } := by
  obtain ⟨-, -, hou, -⟩ := enterRun_blocks s
  rw [hou, ← runFlushed_overrides s]
  simp [OutputUnit.clearEnables]

/-- What RU holds besides the records, and SS's queue, after an entry to RUN (R62, R171). -/
theorem enterRun_rest : s.enterRun.ru.rest = s.ru.rest ∧ QueueFlushed s.ss s.enterRun.ss fun _ => true := by
  obtain ⟨hss, hru, -⟩ := enterRun_blocks s
  rw [hss, hru]
  exact ⟨runFlushed_rest s, runFlushed_queue s⟩

end

/-- The flags of R15, read off the view of a position. -/
theorem runFlags_of_view {s t : State} {p : Pos} (h : t.view p = s.runView p ((s.view p).flushed (s.blankClass p) false).unlossed) :
    RunFlags s t p := by
  have hcls := congrArg PositionView.cls h
  rw [view_cls, runView_eq] at hcls
  have hquality : t.cl[p].quality = _ := congrArg ClassRecord.quality hcls
  unfold RunFlags
  rw [hquality]
  cases (s.entry p).station with
  | none => rfl
  | some st =>
    dsimp only [PositionView.flag]
    split <;> rfl

/-- The chain, the class and the reminder of a position after an entry to RUN, read off its view (R62, R93, R118). -/
theorem flushed_of_runView {s t : State} {p : Pos} (h : t.view p = s.runView p ((s.view p).flushed (s.blankClass p) false).unlossed) :
    t.ss.chains[p] = { flushedChain s.ss.chains[p] with loss := false } ∧ t.cl[p].candidate = none ∧ t.cl[p].confirm = 0 ∧
    t.cl[p].disturbedRun = 0 ∧ t.cl[p].committed = s.blankClass p ∧
    t.ru.records[p] =
      if s.blankClass p = s.cl[p].committed then s.ru.records[p] else s.ru.records[p].blanked (s.blankClass p) := by
  rw [runView_eq] at h
  have hcls := congrArg PositionView.cls h
  rw [view_cls] at hcls
  rw [hcls]
  exact ⟨congrArg PositionView.chain h, rfl, rfl, rfl, rfl, congrArg PositionView.record h⟩

/-! ## SET_MODE with a mode byte of RUN, and of no mode -/

/-- The row SET_MODE_RUN takes a frame whose mode byte is 1. -/
theorem setModeRun_wf (base : BitVec 11) {rec : RequestRecord} (hkind : rec.ofKind 4) (hid : rec.id = 1) :
    ((requestFrame base rec).under .setModeRun).wf = true := by
  change setsMode (requestFrame base rec).data 1 = true
  have hbyte : byteAt (requestFrame base rec).data 1 = 1 := hid
  simp [setsMode, isKind_requestFrame base hkind, hbyte]

/-- Every row of SET_MODE takes a frame whose mode byte names no mode (log entry 8). -/
theorem setMode_wf_unnamed (base : BitVec 11) {rec : RequestRecord} (hkind : rec.ofKind 4) (hid : 3 ≤ rec.id.toNat) {c : Instr}
    (hc : c ∈ [Instr.setModeRun, .setModeHold, .setModeConfig].map (requestFrame base rec).under) : c.wf = true := by
  have hrow (m : Byte) : setsMode (requestFrame base rec).data m = true := by
    have hbyte : byteAt (requestFrame base rec).data 1 = rec.id := rfl
    simp [setsMode, isKind_requestFrame base hkind, hbyte, hid]
  simp only [List.map_cons, List.map_nil, List.mem_cons, List.not_mem_nil, or_false] at hc
  rcases hc with rfl | rfl | rfl
  · exact hrow 1
  · exact hrow 2
  · exact hrow 0

theorem serveSetMode_unnamed (s : State) {rec : RequestRecord} (hid : 3 ≤ rec.id.toNat) :
    s.serveSetMode rec = (s, refusal .range) := by
  have hnone : modeOf rec.id = none := by
    unfold modeOf
    split
    · omega
    · omega
    · omega
    · rfl
  unfold State.serveSetMode
  rw [hnone]

/-- SET_MODE RUN in each mode (R164, R170). -/
theorem serveSetMode_run {s : State} {rec : RequestRecord} (hid : rec.id = 1) :
    (s.mode = .run → s.serveSetMode rec = (s, okay 1)) ∧
    (s.mode ≠ .run → (∀ w, s.tables.flaw = some w → s.serveSetMode rec = (s, refusal .invalidTables w.table w.entry w.word)) ∧
      (s.tables.flaw = none → s.serveSetMode rec = (s.enterRun, okay 1))) := by
  have hnamed : modeOf rec.id = some .run := by rw [hid]; rfl
  unfold State.serveSetMode
  rw [hnamed]
  refine ⟨fun hmode => ?_, fun hmode => ⟨fun w hflaw => ?_, fun hflaw => ?_⟩⟩
  · simp [hmode, Mode.code, wordOf]
  · simp [Ne.symm hmode, State.changeToRun, hflaw]
  · simp [Ne.symm hmode, State.changeToRun, hflaw]

/-- Settles O46: the answers by mode byte and mode, the entry as one state, the ten checks in their order, and the entry found for a
node id. -/
theorem setModeRunEntersRunOrNamesTheFlaw : Obligations.SetModeRunEntersRunOrNamesTheFlaw := by
  refine ⟨fun s rec hserves hkind => ?_, Tables.firstFlaw, fun t n e hdistinct hn => Tables.findCalibration_iff hdistinct hn⟩
  intro f answered
  refine ⟨fun hid c hc => ?_, fun hid hmode => ?_, fun hid hmode => ⟨fun w hflaw => ?_, fun hflaw hdistinct => ?_⟩⟩
  · exact (exec_setMode hserves hkind hc (setMode_wf_unnamed _ hkind hid hc)).trans (by rw [serveSetMode_unnamed s hid]; rfl)
  · have hexec := exec_setMode hserves hkind (c := f.under .setModeRun) (by simp [f]) (setModeRun_wf _ hkind hid)
    exact hexec.trans (by rw [(serveSetMode_run hid).1 hmode]; rfl)
  · have hexec := exec_setMode hserves hkind (c := f.under .setModeRun) (by simp [f]) (setModeRun_wf _ hkind hid)
    exact hexec.trans (by rw [((serveSetMode_run hid).2 hmode).1 w hflaw]; rfl)
  · have hexec := exec_setMode hserves hkind (c := f.under .setModeRun) (by simp [f]) (setModeRun_wf _ hkind hid)
    rw [((serveSetMode_run hid).2 hmode).2 hflaw] at hexec
    dsimp only at hexec
    have honly := enterRun_only s
    have hmu : s.enterRun.mu = s.mu := by simp
    have hqueued := enterRun_queued s hdistinct
    obtain ⟨hrest, hqueue⟩ := enterRun_rest s
    have hoverrides := enterRun_overrides s
    obtain ⟨hrouting, hnodes⟩ := enterRun_sm s
    have hview := enterRun_view s hdistinct
    generalize s.enterRun = u at hexec honly hmu hqueued hrest hqueue hoverrides hrouting hnodes hview
    obtain ⟨hbuckles, hcount, htime⟩ := ReminderUnit.rest_eq_iff.mp hrest
    refine ⟨u.serving rec (okay 1), hexec, ?_, ?_, hqueued, hqueue, hbuckles, hcount, htime, hoverrides, fun st q p => ?_, hnodes,
      fun p => ?_⟩
    · unfold State.serving
      rw [honly]
    · unfold State.serving
      rw [hmu]
      rfl
    · change u.sm.routing[st][q] = some p ↔ _
      rw [hrouting]
      exact buildRouting_iff hdistinct
    · obtain ⟨hchain, hcandidate, hconfirm, hdisturbed, hcommitted, hrecord⟩ := flushed_of_runView (hview p)
      refine ⟨runFlags_of_view (hview p), hchain, hcandidate, hconfirm, hdisturbed, hcommitted, fun hfitted hknown hescalating => ?_⟩
      have hblank : s.blankClass p = .unknown := if_pos hfitted
      have hnew : ¬ Cls.unknown = s.cl[p].committed := fun e => hknown e.symm
      rw [hblank, if_neg hnew, blanked_unknown hescalating] at hrecord
      exact hrecord

end Sys2Proof.Machine
end
